-- ==== Sys2Proof/Word.lean ====
section
/-! DEFINITION. The word types of the frame core: a byte of the stream (R8 `BYTE_W`), a digit pattern (R85), a frame
as it stands on the bus (R83) and a binary64 word (R16). -/

namespace Sys2Proof

/-- One octet of the stream or of a frame (R50); bit 0 is the least significant (R10). -/
abbrev Byte := BitVec 8

/-- A 7-bit digit pattern, bit `k` set when segment index `k` is lit (R85, R151). -/
abbrev Pattern := BitVec 7

/-- A frame on the bus, `f_data[79:0]` with `f[i] = f_data[8i+7:8i]` (R83). -/
abbrev Frame := BitVec 80

/-- A binary64 word, sign bit first (R16). -/
abbrev F64 := BitVec 64

/-- A selector word of `opcode_table.json` (R103), wide enough for the widest format (DFRAME, 84 bits) in whole bytes. -/
abbrev Sel := BitVec 88

end Sys2Proof
end

