-- ==== Sys2Proof/Config.lean ====
section
/-! DEFINITION. What the spec leaves open: the contents of the frame buffer after a reset (R35, R128, R281; U4 "any
value"). The named constants of R8 and R9 have values and stand in Machine/Params.lean. -/

namespace Sys2Proof.Config

/-- UNVERIFIED, safe: the ten bytes `fbuf` holds after the `n`-th SYN.RESET. R128: "contents unspecified from here on".
No body: nothing can be proved of a byte of it (assumption log 2). -/
opaque freeFbuf : Nat → Vector Byte 10

end Sys2Proof.Config
end

