-- ==== Sys2Proof/Syntax.lean ====
section
/-! DEFINITION. The operations of the frame core (R2: "Where the checklist or FORMAT.md says 'instruction', read
'operation'"), one constructor per row of `spec/opcode_table.json` in the table's order, and the form in which an
operation is presented to the model: a row's name or a format, with a selector word (R103). -/

namespace Sys2Proof

/-- The column `format` of the operation table (R103). -/
inductive Fmt where
  | sym | digit | frame | dframe | value | pseudo
deriving DecidableEq, Repr

/-- The 60 rows of the operation table, by name. -/
inductive Op where
  | synReset | synNostep | synIdle | synClose | synLock | synShift
  | synEmit | synFill | digRecog | dig0 | dig1 | dig2
  | dig3 | dig4 | dig5 | dig6 | dig7 | dig8
  | dig9 | digInvalid | decValidate | decValidatePass | decValidateFail | decAssemble
  | decSplit | decDigits | decBcdacc | decDpscale | decDpscaleDp0 | decDpscaleDp1
  | decDpscaleDp2 | decSign | decSignNeg | decFlags | decFlagsUsb | decFlagsAuto
  | decFlagsDc | decFlagsAc | decPrefix | decPrefixNano | decPrefixMicro | decPrefixMilli
  | decPrefixKilo | decPrefixMega | decBase | decBaseOhm | decBasePct | decBaseFarad
  | decBaseDegF | decBaseDegC | decBaseAmpere | decBaseVolt | decBaseHertz | fmtUnit
  | fmtValue | fmtReading | decodeFrame | pipe | encodeFrame | frameUntested
deriving DecidableEq, Repr

/-- The inputs of the frame builder ENCODE (R113): four digits, each 0 to 9, and Booleans. -/
structure EncodeArgs where
  /-- thousands digit -/
  d3 : Fin 10
  /-- hundreds digit -/
  d2 : Fin 10
  /-- tens digit -/
  d1 : Fin 10
  /-- units digit -/
  d0 : Fin 10
  /-- divide by 10 -/
  dp0 : Bool
  /-- divide by 100 -/
  dp1 : Bool
  /-- divide by 1000, and the prefix "u" (R289) -/
  dp2 : Bool
  /-- negate -/
  neg : Bool
  /-- mode flags -/
  usb : Bool
  auto : Bool
  dc : Bool
  ac : Bool
  /-- prefixes n, m, k, M -/
  nano : Bool
  milli : Bool
  kilo : Bool
  mega : Bool
  /-- base units Ohm, %, F, degF, degC, A, V, Hz -/
  ohm : Bool
  pct : Bool
  farad : Bool
  degF : Bool
  degC : Bool
  ampere : Bool
  volt : Bool
  hertz : Bool
deriving DecidableEq, Repr

/-- The operations, one constructor per row of `spec/opcode_table.json`. The operands are those of the rule's
**Operands** entry that do not come from a register or from an earlier stage. -/
inductive Instr where
  /-- SYN.RESET. R128: reset; the presented symbol is not taken. -/
  | synReset
  /-- SYN.NOSTEP. R129, R101 line `CLOSED`: no operation; `valid` is `s_valid`, whether a symbol is presented. -/
  | synNostep (valid : Bool)
  /-- SYN.IDLE. R126: no symbol this step. -/
  | synIdle
  /-- SYN.CLOSE. R127: the source reports end of stream. -/
  | synClose
  /-- SYN.LOCK. R123: the byte 0xA5 completes the marker. -/
  | synLock
  /-- SYN.SHIFT. R122: take the byte `b` into the window. -/
  | synShift (b : Byte)
  /-- SYN.EMIT. R125: store the eighth payload byte `b` and output the frame. -/
  | synEmit (b : Byte)
  /-- SYN.FILL. R124: store one of the first seven payload bytes. -/
  | synFill (b : Byte)
  /-- DIG.RECOG. R153, R159: recognise the digit byte `d`, called on its own. -/
  | digRecog (d : Byte)
  /-- DIG.0. R152: the case of DIG.RECOG that returns 0. -/
  | dig0 (d : Byte)
  /-- DIG.1. R152: the case of DIG.RECOG that returns 1. -/
  | dig1 (d : Byte)
  /-- DIG.2. R152: the case of DIG.RECOG that returns 2. -/
  | dig2 (d : Byte)
  /-- DIG.3. R152: the case of DIG.RECOG that returns 3. -/
  | dig3 (d : Byte)
  /-- DIG.4. R152: the case of DIG.RECOG that returns 4. -/
  | dig4 (d : Byte)
  /-- DIG.5. R152: the case of DIG.RECOG that returns 5. -/
  | dig5 (d : Byte)
  /-- DIG.6. R152: the case of DIG.RECOG that returns 6. -/
  | dig6 (d : Byte)
  /-- DIG.7. R152: the case of DIG.RECOG that returns 7. -/
  | dig7 (d : Byte)
  /-- DIG.8. R152: the case of DIG.RECOG that returns 8. -/
  | dig8 (d : Byte)
  /-- DIG.9. R152: the case of DIG.RECOG that returns 9. -/
  | dig9 (d : Byte)
  /-- DIG.INVALID. R154: the case of DIG.RECOG in which the pattern is one of the other 118. -/
  | digInvalid (d : Byte)
  /-- DEC.VALIDATE. R171: check length and marker. -/
  | decValidate (len : BitVec 4) (f : Frame)
  /-- DEC.VALIDATE.PASS. R171: the outcome pass of DEC.VALIDATE. -/
  | decValidatePass (len : BitVec 4) (f : Frame)
  /-- DEC.VALIDATE.FAIL. R171: the outcome MalformedFrame of DEC.VALIDATE. -/
  | decValidateFail (len : BitVec 4) (f : Frame)
  /-- DEC.ASSEMBLE. R172: form the four digit bytes. -/
  | decAssemble (f : Frame)
  /-- DEC.SPLIT. R173: separate marker and pattern of one digit byte. -/
  | decSplit (d : Byte)
  /-- DEC.DIGITS. R174: recognise the four digits, order 3, 2, 1, 0. -/
  | decDigits
  /-- DEC.BCDACC. R175: accumulate the composite integer. -/
  | decBcdacc
  /-- DEC.DPSCALE. R176: place the decimal point. -/
  | decDpscale
  /-- DEC.DPSCALE.dp0. R176: the case "if dp0" (divide by 10). -/
  | decDpscaleDp0 (f : Frame)
  /-- DEC.DPSCALE.dp1. R176: the case "if dp1" (divide by 100). -/
  | decDpscaleDp1 (f : Frame)
  /-- DEC.DPSCALE.dp2. R176: the case "if dp2" (divide by 1000). -/
  | decDpscaleDp2 (f : Frame)
  /-- DEC.SIGN. R177: apply the sign. -/
  | decSign
  /-- DEC.SIGN.neg. R177: the case "if neg". -/
  | decSignNeg (f : Frame)
  /-- DEC.FLAGS. R200: the four mode flags. -/
  | decFlags (f : Frame)
  /-- DEC.FLAGS.usb. R200: the flag USB. -/
  | decFlagsUsb (f : Frame)
  /-- DEC.FLAGS.auto. R200: the flag Auto. -/
  | decFlagsAuto (f : Frame)
  /-- DEC.FLAGS.dc. R200: the flag DC. -/
  | decFlagsDc (f : Frame)
  /-- DEC.FLAGS.ac. R200: the flag AC. -/
  | decFlagsAc (f : Frame)
  /-- DEC.PREFIX. R201: the magnitude prefix. -/
  | decPrefix (f : Frame)
  /-- DEC.PREFIX.n. R201: the case "n". -/
  | decPrefixNano (f : Frame)
  /-- DEC.PREFIX.u. R201: the case "u", the same bit as DEC.DPSCALE.dp2 (R64). -/
  | decPrefixMicro (f : Frame)
  /-- DEC.PREFIX.m. R201: the case "m". -/
  | decPrefixMilli (f : Frame)
  /-- DEC.PREFIX.k. R201: the case "k". -/
  | decPrefixKilo (f : Frame)
  /-- DEC.PREFIX.M. R201: the case "M". -/
  | decPrefixMega (f : Frame)
  /-- DEC.BASE. R202: the base unit. -/
  | decBase (f : Frame)
  /-- DEC.BASE.Ohm. R202: the case "Ohm". -/
  | decBaseOhm (f : Frame)
  /-- DEC.BASE.pct. R202: the case "%". -/
  | decBasePct (f : Frame)
  /-- DEC.BASE.F. R202: the case "F". -/
  | decBaseFarad (f : Frame)
  /-- DEC.BASE.degF. R202: the case "degF". -/
  | decBaseDegF (f : Frame)
  /-- DEC.BASE.degC. R202: the case "degC". -/
  | decBaseDegC (f : Frame)
  /-- DEC.BASE.A. R202: the case "A". -/
  | decBaseAmpere (f : Frame)
  /-- DEC.BASE.V. R202: the case "V". -/
  | decBaseVolt (f : Frame)
  /-- DEC.BASE.Hz. R202: the case "Hz". -/
  | decBaseHertz (f : Frame)
  /-- FMT.UNIT. R203: build the unit string. -/
  | fmtUnit
  /-- FMT.VALUE. R204: build the floating-point value. -/
  | fmtValue
  /-- FMT.READING. R205: assemble the reading record. -/
  | fmtReading
  /-- DECODE. R206: the public entry point DECODE. -/
  | decodeFrame (len : BitVec 4) (f : Frame)
  /-- PIPE. R207: one step of the whole block on the given input signals (R82). -/
  | pipe (rst valid eos : Bool) (data : Byte)
  /-- ENCODE. R113: the pseudo-operation ENCODE, the frame builder; not hardware. -/
  | encodeFrame (a : EncodeArgs)
  /-- FRAME.UNTESTED. R106: the 16 untested bits; no operation reads them. -/
  | frameUntested (f : Frame)
deriving DecidableEq, Repr

/-- The row an operation belongs to. -/
def Instr.op : Instr → Op
  | .synReset => .synReset
  | .synNostep _ => .synNostep
  | .synIdle => .synIdle
  | .synClose => .synClose
  | .synLock => .synLock
  | .synShift _ => .synShift
  | .synEmit _ => .synEmit
  | .synFill _ => .synFill
  | .digRecog _ => .digRecog
  | .dig0 _ => .dig0
  | .dig1 _ => .dig1
  | .dig2 _ => .dig2
  | .dig3 _ => .dig3
  | .dig4 _ => .dig4
  | .dig5 _ => .dig5
  | .dig6 _ => .dig6
  | .dig7 _ => .dig7
  | .dig8 _ => .dig8
  | .dig9 _ => .dig9
  | .digInvalid _ => .digInvalid
  | .decValidate _ _ => .decValidate
  | .decValidatePass _ _ => .decValidatePass
  | .decValidateFail _ _ => .decValidateFail
  | .decAssemble _ => .decAssemble
  | .decSplit _ => .decSplit
  | .decDigits => .decDigits
  | .decBcdacc => .decBcdacc
  | .decDpscale => .decDpscale
  | .decDpscaleDp0 _ => .decDpscaleDp0
  | .decDpscaleDp1 _ => .decDpscaleDp1
  | .decDpscaleDp2 _ => .decDpscaleDp2
  | .decSign => .decSign
  | .decSignNeg _ => .decSignNeg
  | .decFlags _ => .decFlags
  | .decFlagsUsb _ => .decFlagsUsb
  | .decFlagsAuto _ => .decFlagsAuto
  | .decFlagsDc _ => .decFlagsDc
  | .decFlagsAc _ => .decFlagsAc
  | .decPrefix _ => .decPrefix
  | .decPrefixNano _ => .decPrefixNano
  | .decPrefixMicro _ => .decPrefixMicro
  | .decPrefixMilli _ => .decPrefixMilli
  | .decPrefixKilo _ => .decPrefixKilo
  | .decPrefixMega _ => .decPrefixMega
  | .decBase _ => .decBase
  | .decBaseOhm _ => .decBaseOhm
  | .decBasePct _ => .decBasePct
  | .decBaseFarad _ => .decBaseFarad
  | .decBaseDegF _ => .decBaseDegF
  | .decBaseDegC _ => .decBaseDegC
  | .decBaseAmpere _ => .decBaseAmpere
  | .decBaseVolt _ => .decBaseVolt
  | .decBaseHertz _ => .decBaseHertz
  | .fmtUnit => .fmtUnit
  | .fmtValue => .fmtValue
  | .fmtReading => .fmtReading
  | .decodeFrame _ _ => .decodeFrame
  | .pipe _ _ _ _ => .pipe
  | .encodeFrame _ => .encodeFrame
  | .frameUntested _ => .frameUntested

/-- Whether the operation is one in which `rst = 1` (R82, R128). -/
def Instr.rst : Instr → Bool
  | .synReset => true
  | .pipe rst _ _ _ => rst
  | .synNostep _ => false
  | .synIdle => false
  | .synClose => false
  | .synLock => false
  | .synShift _ => false
  | .synEmit _ => false
  | .synFill _ => false
  | .digRecog _ => false
  | .dig0 _ => false
  | .dig1 _ => false
  | .dig2 _ => false
  | .dig3 _ => false
  | .dig4 _ => false
  | .dig5 _ => false
  | .dig6 _ => false
  | .dig7 _ => false
  | .dig8 _ => false
  | .dig9 _ => false
  | .digInvalid _ => false
  | .decValidate _ _ => false
  | .decValidatePass _ _ => false
  | .decValidateFail _ _ => false
  | .decAssemble _ => false
  | .decSplit _ => false
  | .decDigits => false
  | .decBcdacc => false
  | .decDpscale => false
  | .decDpscaleDp0 _ => false
  | .decDpscaleDp1 _ => false
  | .decDpscaleDp2 _ => false
  | .decSign => false
  | .decSignNeg _ => false
  | .decFlags _ => false
  | .decFlagsUsb _ => false
  | .decFlagsAuto _ => false
  | .decFlagsDc _ => false
  | .decFlagsAc _ => false
  | .decPrefix _ => false
  | .decPrefixNano _ => false
  | .decPrefixMicro _ => false
  | .decPrefixMilli _ => false
  | .decPrefixKilo _ => false
  | .decPrefixMega _ => false
  | .decBase _ => false
  | .decBaseOhm _ => false
  | .decBasePct _ => false
  | .decBaseFarad _ => false
  | .decBaseDegF _ => false
  | .decBaseDegC _ => false
  | .decBaseAmpere _ => false
  | .decBaseVolt _ => false
  | .decBaseHertz _ => false
  | .fmtUnit => false
  | .fmtValue => false
  | .fmtReading => false
  | .decodeFrame _ _ => false
  | .encodeFrame _ => false
  | .frameUntested _ => false

/-- How an operation is named to the model: by a format alone, when the selector word picks the row (R103), or by its
row, for the rows that the selector word does not tell apart (DESIGN CHOICE, assumption log 4). -/
inductive Tag where
  | select (fmt : Fmt)
  | named (op : Op)
deriving DecidableEq, Repr

/-- An operation as it is presented: a tag and a selector word, bit 0 the least significant (R103). -/
structure Code where
  tag : Tag
  bits : Sel
deriving DecidableEq, Repr

/-- Why the decoder rejects a word. -/
inductive Reject where
  /-- a bit is set above the format's width -/
  | extraBits
  /-- no row of the format applies: a SYM word with `rst = 0` and `phase = 0b11` (R24, U8), or a format that has no
  selector word (R103) -/
  | noRow
  /-- the named row does not apply to the word, or a row of smaller priority does (R103) -/
  | notApplies
  /-- an ENCODE digit above 9 (R113: "four digits (each 0 to 9)") -/
  | digitRange
deriving DecidableEq, Repr

end Sys2Proof
end

