-- ==== Sys2Proof/WellFormed.lean ====
section
/-! DEFINITION. Which operations are well formed: a case row carries a word that the case applies to (R103). The bit
numbers are written from the field table of R84 (bit `k` of `f[i]` is bit `8i + k`), not from the masks of the table. -/

namespace Sys2Proof

/-- The low seven bits of a digit byte equal a pattern (R152). -/
def patternIs (d : Byte) (p : Pattern) : Bool := d.extractLsb' 0 7 == p

/-- The pattern of a digit byte is one of the ten of R152. -/
def patternKnown (d : Byte) : Bool :=
  [0x7D#7, 0x05#7, 0x5B#7, 0x1F#7, 0x27#7, 0x3E#7, 0x7E#7, 0x15#7, 0x7F#7, 0x3F#7].any (patternIs d)

/-- Bit `k` of byte `i` of a frame is set (R83). -/
def frameBitSet (f : Frame) (i k : Nat) : Bool := f.getLsbD (8 * i + k)

/-- The list a DFRAME presents has length 10 and begins with the marker (R171). -/
def dframeGood (len : BitVec 4) (f : Frame) : Bool :=
  len == 10#4 && f.extractLsb' 0 8 == 0xA5#8 && f.extractLsb' 8 8 == 0xA5#8

/-- Well-formed operations: the operands of a case row make the case apply. -/
def Instr.wf : Instr → Bool
  | .dig0 d => patternIs d 0x7D#7
  | .dig1 d => patternIs d 0x05#7
  | .dig2 d => patternIs d 0x5B#7
  | .dig3 d => patternIs d 0x1F#7
  | .dig4 d => patternIs d 0x27#7
  | .dig5 d => patternIs d 0x3E#7
  | .dig6 d => patternIs d 0x7E#7
  | .dig7 d => patternIs d 0x15#7
  | .dig8 d => patternIs d 0x7F#7
  | .dig9 d => patternIs d 0x3F#7
  | .digInvalid d => !patternKnown d
  | .decValidatePass len f => dframeGood len f
  | .decValidateFail len f => !dframeGood len f
  | .decDpscaleDp0 f => frameBitSet f 5 7
  | .decDpscaleDp1 f => frameBitSet f 4 7
  | .decDpscaleDp2 f => frameBitSet f 3 7
  | .decSignNeg f => frameBitSet f 2 7
  | .decFlagsUsb f => frameBitSet f 2 0
  | .decFlagsAuto f => frameBitSet f 2 1
  | .decFlagsDc f => frameBitSet f 2 2
  | .decFlagsAc f => frameBitSet f 2 3
  | .decPrefixNano f => frameBitSet f 6 7
  | .decPrefixMicro f => frameBitSet f 3 7
  | .decPrefixMilli f => frameBitSet f 7 7
  | .decPrefixKilo f => frameBitSet f 7 1
  | .decPrefixMega f => frameBitSet f 7 5
  | .decBaseOhm f => frameBitSet f 6 6
  | .decBasePct f => frameBitSet f 7 6
  | .decBaseFarad f => frameBitSet f 7 2
  | .decBaseDegF f => frameBitSet f 8 7
  | .decBaseDegC f => frameBitSet f 8 6
  | .decBaseAmpere f => frameBitSet f 8 3
  | .decBaseVolt f => frameBitSet f 8 2
  | .decBaseHertz f => frameBitSet f 8 1
  | .synReset | .synNostep _ | .synIdle | .synClose | .synLock | .synShift _ | .synEmit _ | .synFill _
  | .digRecog _ | .decValidate _ _ | .decAssemble _ | .decSplit _ | .decDigits | .decBcdacc | .decDpscale | .decSign
  | .decFlags _ | .decPrefix _ | .decBase _ | .fmtUnit | .fmtValue | .fmtReading | .decodeFrame _ _ | .pipe _ _ _ _
  | .encodeFrame _ | .frameUntested _ => true

end Sys2Proof
end

