-- ==== Sys2Proof/Decode.lean ====
section
/-! DEFINITION. The operation table as data (match, mask and priority of `spec/opcode_table.json`, read by R103), the
decoder from a presented word to an operation, total and rejecting by name, and the encoder back. -/

namespace Sys2Proof

/-- The format of a row (the table's column `format`). -/
def Op.fmt : Op → Fmt
  | .synReset | .synNostep | .synIdle | .synClose | .synLock | .synShift | .synEmit | .synFill | .pipe => .sym
  | .digRecog | .dig0 | .dig1 | .dig2 | .dig3 | .dig4 | .dig5 | .dig6 | .dig7 | .dig8 | .dig9 | .digInvalid
  | .decSplit | .decDigits => .digit
  | .decAssemble | .decDpscaleDp0 | .decDpscaleDp1 | .decDpscaleDp2 | .decSignNeg | .decFlags | .decFlagsUsb
  | .decFlagsAuto | .decFlagsDc | .decFlagsAc | .decPrefix | .decPrefixNano | .decPrefixMicro | .decPrefixMilli
  | .decPrefixKilo | .decPrefixMega | .decBase | .decBaseOhm | .decBasePct | .decBaseFarad | .decBaseDegF
  | .decBaseDegC | .decBaseAmpere | .decBaseVolt | .decBaseHertz | .frameUntested => .frame
  | .decValidate | .decValidatePass | .decValidateFail | .decodeFrame => .dframe
  | .decBcdacc | .decDpscale | .decSign | .fmtUnit | .fmtValue | .fmtReading => .value
  | .encodeFrame => .pseudo

/-- The row's `mask`: the bits of the selector word it tests (R103). -/
def Op.mask : Op → Sel
  | .synReset => 0x800000#88
  | .synNostep => 0xE00000#88
  | .synIdle => 0xC20000#88
  | .synClose => 0xC30000#88
  | .synLock => 0xE3FFFF#88
  | .synShift => 0xE30000#88
  | .synEmit => 0xFF0000#88
  | .synFill => 0xE30000#88
  | .digRecog => 0x0#88
  | .dig0 => 0x7F#88
  | .dig1 => 0x7F#88
  | .dig2 => 0x7F#88
  | .dig3 => 0x7F#88
  | .dig4 => 0x7F#88
  | .dig5 => 0x7F#88
  | .dig6 => 0x7F#88
  | .dig7 => 0x7F#88
  | .dig8 => 0x7F#88
  | .dig9 => 0x7F#88
  | .digInvalid => 0x0#88
  | .decValidate => 0x0#88
  | .decValidatePass => 0xF0000000000000000FFFF#88
  | .decValidateFail => 0x0#88
  | .decAssemble => 0x0#88
  | .decSplit => 0x0#88
  | .decDigits => 0x0#88
  | .decBcdacc => 0x0#88
  | .decDpscale => 0x0#88
  | .decDpscaleDp0 => 0x800000000000#88
  | .decDpscaleDp1 => 0x8000000000#88
  | .decDpscaleDp2 => 0x80000000#88
  | .decSign => 0x0#88
  | .decSignNeg => 0x800000#88
  | .decFlags => 0x0#88
  | .decFlagsUsb => 0x10000#88
  | .decFlagsAuto => 0x20000#88
  | .decFlagsDc => 0x40000#88
  | .decFlagsAc => 0x80000#88
  | .decPrefix => 0x0#88
  | .decPrefixNano => 0x80000000000000#88
  | .decPrefixMicro => 0x80000000#88
  | .decPrefixMilli => 0x8000000000000000#88
  | .decPrefixKilo => 0x200000000000000#88
  | .decPrefixMega => 0x2000000000000000#88
  | .decBase => 0x0#88
  | .decBaseOhm => 0x40000000000000#88
  | .decBasePct => 0x4000000000000000#88
  | .decBaseFarad => 0x400000000000000#88
  | .decBaseDegF => 0x800000000000000000#88
  | .decBaseDegC => 0x400000000000000000#88
  | .decBaseAmpere => 0x80000000000000000#88
  | .decBaseVolt => 0x40000000000000000#88
  | .decBaseHertz => 0x20000000000000000#88
  | .fmtUnit => 0x0#88
  | .fmtValue => 0x0#88
  | .fmtReading => 0x0#88
  | .decodeFrame => 0x0#88
  | .pipe => 0x0#88
  | .encodeFrame => 0x0#88
  | .frameUntested => 0x0#88

/-- The row's `match`: what the tested bits must be (R103). -/
def Op.pattern : Op → Sel
  | .synReset => 0x800000#88
  | .synNostep => 0x400000#88
  | .synIdle => 0x0#88
  | .synClose => 0x30000#88
  | .synLock => 0x2A5A5#88
  | .synShift => 0x20000#88
  | .synEmit => 0x3E0000#88
  | .synFill => 0x220000#88
  | .digRecog => 0x0#88
  | .dig0 => 0x7D#88
  | .dig1 => 0x5#88
  | .dig2 => 0x5B#88
  | .dig3 => 0x1F#88
  | .dig4 => 0x27#88
  | .dig5 => 0x3E#88
  | .dig6 => 0x7E#88
  | .dig7 => 0x15#88
  | .dig8 => 0x7F#88
  | .dig9 => 0x3F#88
  | .digInvalid => 0x0#88
  | .decValidate => 0x0#88
  | .decValidatePass => 0xA0000000000000000A5A5#88
  | .decValidateFail => 0x0#88
  | .decAssemble => 0x0#88
  | .decSplit => 0x0#88
  | .decDigits => 0x0#88
  | .decBcdacc => 0x0#88
  | .decDpscale => 0x0#88
  | .decDpscaleDp0 => 0x800000000000#88
  | .decDpscaleDp1 => 0x8000000000#88
  | .decDpscaleDp2 => 0x80000000#88
  | .decSign => 0x0#88
  | .decSignNeg => 0x800000#88
  | .decFlags => 0x0#88
  | .decFlagsUsb => 0x10000#88
  | .decFlagsAuto => 0x20000#88
  | .decFlagsDc => 0x40000#88
  | .decFlagsAc => 0x80000#88
  | .decPrefix => 0x0#88
  | .decPrefixNano => 0x80000000000000#88
  | .decPrefixMicro => 0x80000000#88
  | .decPrefixMilli => 0x8000000000000000#88
  | .decPrefixKilo => 0x200000000000000#88
  | .decPrefixMega => 0x2000000000000000#88
  | .decBase => 0x0#88
  | .decBaseOhm => 0x40000000000000#88
  | .decBasePct => 0x4000000000000000#88
  | .decBaseFarad => 0x400000000000000#88
  | .decBaseDegF => 0x800000000000000000#88
  | .decBaseDegC => 0x400000000000000000#88
  | .decBaseAmpere => 0x80000000000000000#88
  | .decBaseVolt => 0x40000000000000000#88
  | .decBaseHertz => 0x20000000000000000#88
  | .fmtUnit => 0x0#88
  | .fmtValue => 0x0#88
  | .fmtReading => 0x0#88
  | .decodeFrame => 0x0#88
  | .pipe => 0x0#88
  | .encodeFrame => 0x0#88
  | .frameUntested => 0x0#88

/-- "a row applies to a selector word `w` when `(w & mask) == match`" (R103). -/
def Op.applies (op : Op) (w : Sel) : Bool := w &&& op.mask == op.pattern

/-- The width of a format's selector word in bits (R103). VALUE has none; the 36 bits of PSEUDO are the model's own
layout of ENCODE's arguments (DESIGN CHOICE, assumption log 4). -/
def Fmt.width : Fmt → Nat
  | .sym => 24
  | .digit => 8
  | .frame => 80
  | .dframe => 84
  | .value => 0
  | .pseudo => 36

/-- The rows of a format that carry a `priority`, smallest number first (R103). -/
def Fmt.prioritised : Fmt → List Op
  | .sym => [.synReset, .synNostep, .synIdle, .synClose, .synLock, .synShift, .synEmit, .synFill]
  | .digit => [.dig0, .dig1, .dig2, .dig3, .dig4, .dig5, .dig6, .dig7, .dig8, .dig9, .digInvalid]
  | .dframe => [.decValidatePass, .decValidateFail]
  | .frame | .value | .pseudo => []

/-- The rows a frame word alone is read as: no FRAME row has a priority and several can apply, so the first single-bit
case in the table's order is taken, then DEC.ASSEMBLE (DESIGN CHOICE, assumption log 4). -/
def frameRows : List Op :=
  [.decDpscaleDp0, .decDpscaleDp1, .decDpscaleDp2, .decSignNeg,
   .decFlagsUsb, .decFlagsAuto, .decFlagsDc, .decFlagsAc,
   .decPrefixNano, .decPrefixMicro, .decPrefixMilli, .decPrefixKilo, .decPrefixMega,
   .decBaseOhm, .decBasePct, .decBaseFarad, .decBaseDegF, .decBaseDegC, .decBaseAmpere, .decBaseVolt, .decBaseHertz,
   .decAssemble]

/-- "among the rows of one format that apply, the row with the smallest `priority` number is the one selected" (R103). -/
def select (fmt : Fmt) (w : Sel) : Option Op :=
  match fmt with
  | .frame => frameRows.find? (·.applies w)
  | .sym | .digit | .dframe | .value | .pseudo => fmt.prioritised.find? (·.applies w)

/-- Whether a row of a format is selected by priority, and so excludes the other such rows. -/
def Op.hasPriority (op : Op) : Bool := op.fmt.prioritised.contains op

/-- Whether a row holds of a word: it applies, and if it has a priority no row of smaller priority applies (R103). -/
def Op.holds (op : Op) (w : Sel) : Bool :=
  if op.hasPriority then select op.fmt w == some op else op.applies w

/-- The frame of a FRAME or DFRAME word: bits 79..0 (R83, R103). -/
def selFrame (w : Sel) : Frame := w.extractLsb' 0 80
/-- `d_len` of a DFRAME word: bits 83..80 (R103). -/
def selLen (w : Sel) : BitVec 4 := w.extractLsb' 80 4
/-- The digit byte of a DIGIT word: bits 7..0 (R103). -/
def selDigit (w : Sel) : Byte := w.extractLsb' 0 8
/-- `s_data` of a SYM word: bits 15..8 (R103). -/
def selData (w : Sel) : Byte := w.extractLsb' 8 8
/-- `s_valid` of a SYM word: bit 17 (R103). -/
def selValid (w : Sel) : Bool := w.getLsbD 17
/-- `s_eos` of a SYM word: bit 16 (R103). -/
def selEos (w : Sel) : Bool := w.getLsbD 16
/-- `rst` of a SYM word: bit 23 (R103). -/
def selRst (w : Sel) : Bool := w.getLsbD 23

/-- A decimal digit from a 4-bit field, if it is at most 9 (R113). -/
def digitArg (v : BitVec 4) : Option (Fin 10) :=
  if h : v.toNat < 10 then some ⟨v.toNat, h⟩ else none

/-- The arguments of ENCODE from the model's own 36-bit layout: digits d3 d2 d1 d0 in bits 15..0 as in `rd_digits`,
then dp0 dp1 dp2 neg, USB Auto DC AC, n m k M, and the base units in the order of R93 from bit 28 on. -/
def encodeArgs (w : Sel) : Option EncodeArgs :=
  match digitArg (w.extractLsb' 12 4), digitArg (w.extractLsb' 8 4), digitArg (w.extractLsb' 4 4),
      digitArg (w.extractLsb' 0 4) with
  | some d3, some d2, some d1, some d0 =>
    some { d3 := d3, d2 := d2, d1 := d1, d0 := d0
           dp0 := w.getLsbD 16, dp1 := w.getLsbD 17, dp2 := w.getLsbD 18, neg := w.getLsbD 19
           usb := w.getLsbD 20, auto := w.getLsbD 21, dc := w.getLsbD 22, ac := w.getLsbD 23
           nano := w.getLsbD 24, milli := w.getLsbD 25, kilo := w.getLsbD 26, mega := w.getLsbD 27
           ohm := w.getLsbD 28, pct := w.getLsbD 29, farad := w.getLsbD 30, degF := w.getLsbD 31
           degC := w.getLsbD 32, ampere := w.getLsbD 33, volt := w.getLsbD 34, hertz := w.getLsbD 35 }
  | _, _, _, _ => none

/-- The operation of a row with the operands that a word gives it. -/
def build (op : Op) (w : Sel) : Except Reject Instr :=
  match op with
  | .synReset => .ok .synReset
  | .synNostep => .ok (.synNostep (selValid w))
  | .synIdle => .ok .synIdle
  | .synClose => .ok .synClose
  | .synLock => .ok .synLock
  | .synShift => .ok (.synShift (selData w))
  | .synEmit => .ok (.synEmit (selData w))
  | .synFill => .ok (.synFill (selData w))
  | .digRecog => .ok (.digRecog (selDigit w))
  | .dig0 => .ok (.dig0 (selDigit w))
  | .dig1 => .ok (.dig1 (selDigit w))
  | .dig2 => .ok (.dig2 (selDigit w))
  | .dig3 => .ok (.dig3 (selDigit w))
  | .dig4 => .ok (.dig4 (selDigit w))
  | .dig5 => .ok (.dig5 (selDigit w))
  | .dig6 => .ok (.dig6 (selDigit w))
  | .dig7 => .ok (.dig7 (selDigit w))
  | .dig8 => .ok (.dig8 (selDigit w))
  | .dig9 => .ok (.dig9 (selDigit w))
  | .digInvalid => .ok (.digInvalid (selDigit w))
  | .decValidate => .ok (.decValidate (selLen w) (selFrame w))
  | .decValidatePass => .ok (.decValidatePass (selLen w) (selFrame w))
  | .decValidateFail => .ok (.decValidateFail (selLen w) (selFrame w))
  | .decAssemble => .ok (.decAssemble (selFrame w))
  | .decSplit => .ok (.decSplit (selDigit w))
  | .decDigits => .ok .decDigits
  | .decBcdacc => .ok .decBcdacc
  | .decDpscale => .ok .decDpscale
  | .decDpscaleDp0 => .ok (.decDpscaleDp0 (selFrame w))
  | .decDpscaleDp1 => .ok (.decDpscaleDp1 (selFrame w))
  | .decDpscaleDp2 => .ok (.decDpscaleDp2 (selFrame w))
  | .decSign => .ok .decSign
  | .decSignNeg => .ok (.decSignNeg (selFrame w))
  | .decFlags => .ok (.decFlags (selFrame w))
  | .decFlagsUsb => .ok (.decFlagsUsb (selFrame w))
  | .decFlagsAuto => .ok (.decFlagsAuto (selFrame w))
  | .decFlagsDc => .ok (.decFlagsDc (selFrame w))
  | .decFlagsAc => .ok (.decFlagsAc (selFrame w))
  | .decPrefix => .ok (.decPrefix (selFrame w))
  | .decPrefixNano => .ok (.decPrefixNano (selFrame w))
  | .decPrefixMicro => .ok (.decPrefixMicro (selFrame w))
  | .decPrefixMilli => .ok (.decPrefixMilli (selFrame w))
  | .decPrefixKilo => .ok (.decPrefixKilo (selFrame w))
  | .decPrefixMega => .ok (.decPrefixMega (selFrame w))
  | .decBase => .ok (.decBase (selFrame w))
  | .decBaseOhm => .ok (.decBaseOhm (selFrame w))
  | .decBasePct => .ok (.decBasePct (selFrame w))
  | .decBaseFarad => .ok (.decBaseFarad (selFrame w))
  | .decBaseDegF => .ok (.decBaseDegF (selFrame w))
  | .decBaseDegC => .ok (.decBaseDegC (selFrame w))
  | .decBaseAmpere => .ok (.decBaseAmpere (selFrame w))
  | .decBaseVolt => .ok (.decBaseVolt (selFrame w))
  | .decBaseHertz => .ok (.decBaseHertz (selFrame w))
  | .fmtUnit => .ok .fmtUnit
  | .fmtValue => .ok .fmtValue
  | .fmtReading => .ok .fmtReading
  | .decodeFrame => .ok (.decodeFrame (selLen w) (selFrame w))
  | .pipe => .ok (.pipe (selRst w) (selValid w) (selEos w) (selData w))
  | .encodeFrame =>
    match encodeArgs w with
    | some a => .ok (.encodeFrame a)
    | none => .error .digitRange
  | .frameUntested => .ok (.frameUntested (selFrame w))

/-- The row that a presented word names or selects. -/
def Code.row (c : Code) : Except Reject Op :=
  match c.tag with
  | .named op =>
    if c.bits.toNat < 2 ^ op.fmt.width then
      if op.holds c.bits then .ok op else .error .notApplies
    else .error .extraBits
  | .select fmt =>
    if c.bits.toNat < 2 ^ fmt.width then
      match select fmt c.bits with
      | some op => .ok op
      | none => .error .noRow
    else .error .extraBits

/-- The decoder: total on every presented word, rejecting by name. -/
def decode (c : Code) : Except Reject Instr :=
  match c.row with
  | .ok op => build op c.bits
  | .error r => .error r

/-- The format whose selector word has `nbits` bits, counted in whole bytes (R103): 8 DIGIT, 24 SYM, 81 to 88 DFRAME;
any other width up to 80 that is wider than SYM is a FRAME word whose upper bits are 0. -/
def fmtOfWidth (nbits : Nat) : Option Fmt :=
  if nbits = 8 then some .digit
  else if nbits = 24 then some .sym
  else if 24 < nbits ∧ nbits ≤ 80 then some .frame
  else if 80 < nbits ∧ nbits ≤ 88 then some .dframe
  else none

/-- The operation that the decoder reads from a table word of `nbits` bits. -/
def decodeTableWord (nbits w : Nat) : Option Instr :=
  match fmtOfWidth nbits with
  | some fmt =>
    if w < 2 ^ 88 then
      match decode ⟨.select fmt, BitVec.ofNat 88 w⟩ with
      | .ok i => some i
      | .error _ => none
    else none
  | none => none

/-- A SYM word from its fields (R103). -/
def symBits (rst : Bool) (phase : BitVec 2) (cnt : BitVec 3) (valid eos : Bool) (data win0 : Byte) : BitVec 24 :=
  BitVec.ofBool rst ++ phase ++ cnt ++ BitVec.ofBool valid ++ BitVec.ofBool eos ++ data ++ win0

/-- A DFRAME word: `d_len` above `d_frame` (R103). -/
def dframeBits (len : BitVec 4) (f : Frame) : Sel := (len ++ f).setWidth 88

/-- A decimal digit as a 4-bit field. -/
def digitBits (d : Fin 10) : BitVec 4 := BitVec.ofNat 4 d.val

/-- The model's own word for ENCODE's arguments, the inverse of `encodeArgs`. -/
def encodeArgsBits (a : EncodeArgs) : BitVec 36 :=
  BitVec.ofBool a.hertz ++ BitVec.ofBool a.volt ++ BitVec.ofBool a.ampere ++ BitVec.ofBool a.degC ++
  BitVec.ofBool a.degF ++ BitVec.ofBool a.farad ++ BitVec.ofBool a.pct ++ BitVec.ofBool a.ohm ++
  BitVec.ofBool a.mega ++ BitVec.ofBool a.kilo ++ BitVec.ofBool a.milli ++ BitVec.ofBool a.nano ++
  BitVec.ofBool a.ac ++ BitVec.ofBool a.dc ++ BitVec.ofBool a.auto ++ BitVec.ofBool a.usb ++
  BitVec.ofBool a.neg ++ BitVec.ofBool a.dp2 ++ BitVec.ofBool a.dp1 ++ BitVec.ofBool a.dp0 ++
  digitBits a.d3 ++ digitBits a.d2 ++ digitBits a.d1 ++ digitBits a.d0

/-- The selector word of an operation. A SYM word carries register fields as well (phase, cnt, win0): the encoder
writes the ones the row asks for (R101) and 0 elsewhere. -/
def Instr.bits : Instr → Sel
  | .synReset => (symBits true 0 0 false false 0 0).setWidth 88
  | .synNostep v => (symBits false 2 0 v false 0 0).setWidth 88
  | .synIdle => (symBits false 0 0 false false 0 0).setWidth 88
  | .synClose => (symBits false 0 0 true true 0 0).setWidth 88
  | .synLock => (symBits false 0 0 true false 0xA5 0xA5).setWidth 88
  | .synShift b => (symBits false 0 0 true false b 0).setWidth 88
  | .synEmit b => (symBits false 1 7 true false b 0).setWidth 88
  | .synFill b => (symBits false 1 0 true false b 0).setWidth 88
  | .pipe rst valid eos data => (symBits rst 0 0 valid eos data 0).setWidth 88
  | .encodeFrame a => (encodeArgsBits a).setWidth 88
  | .digRecog d | .dig0 d | .dig1 d | .dig2 d | .dig3 d | .dig4 d | .dig5 d | .dig6 d | .dig7 d | .dig8 d
  | .dig9 d | .digInvalid d | .decSplit d => d.setWidth 88
  | .decAssemble f | .decDpscaleDp0 f | .decDpscaleDp1 f | .decDpscaleDp2 f | .decSignNeg f | .decFlags f
  | .decFlagsUsb f | .decFlagsAuto f | .decFlagsDc f | .decFlagsAc f | .decPrefix f | .decPrefixNano f
  | .decPrefixMicro f | .decPrefixMilli f | .decPrefixKilo f | .decPrefixMega f | .decBase f | .decBaseOhm f
  | .decBasePct f | .decBaseFarad f | .decBaseDegF f | .decBaseDegC f | .decBaseAmpere f | .decBaseVolt f
  | .decBaseHertz f | .frameUntested f => f.setWidth 88
  | .decValidate len f | .decValidatePass len f | .decValidateFail len f | .decodeFrame len f => dframeBits len f
  | .decDigits | .decBcdacc | .decDpscale | .decSign | .fmtUnit | .fmtValue | .fmtReading => 0

/-- The encoder: the row's name and the selector word. -/
def encode (i : Instr) : Code := ⟨.named i.op, i.bits⟩

end Sys2Proof
end

