-- ==== Sys2Proof/Machine/State.lean ====
section
/-! DEFINITION. The state of the model: the five registers of R20, and the model's own fields (the host's inputs, the
outputs of the step, the results of stages evaluated one at a time, the free-value counter); the reasons a step can
stop; the state right after reset (R35, R281). -/

namespace Sys2Proof.Machine

/-- The Synchronizer's phase (R24). The fourth code 0b11 is produced by no operation and has no constructor (U8). -/
inductive Phase where
  /-- looking for the marker, code 0b00 -/
  | hunt
  /-- taking the 8 payload bytes, code 0b01 -/
  | payload
  /-- the source has ended, code 0b10 -/
  | closed
deriving DecidableEq, Repr

/-- The record READING, ten fields of 187 bits together (R90). -/
structure Reading where
  /-- d3 in bits 15..12, d2 in 11..8, d1 in 7..4, d0 in 3..0 (R174) -/
  digits : BitVec 16
  /-- N, 0 to 9999 (R175) -/
  mag : BitVec 14
  /-- bit 0 divide by 10, bit 1 by 100, bit 2 by 1000 (R173) -/
  dp : BitVec 3
  /-- Digit3 marker (R173) -/
  neg : Bool
  /-- binary64 (R204) -/
  value : F64
  /-- bit 0 USB, bit 1 Auto, bit 2 DC, bit 3 AC (R200) -/
  flags : BitVec 4
  /-- bit 0 "n", bit 1 "u", bit 2 "m", bit 3 "k", bit 4 "M" (R201) -/
  pfx : BitVec 5
  /-- base unit code 0 to 8 (R202, R93) -/
  base : BitVec 4
  /-- number of characters of the unit string, 0 to 9 (R203) -/
  unitLen : BitVec 4
  /-- character `j` in bits 8j+7..8j, 0x00 beyond `unitLen` (R203) -/
  unitChars : BitVec 72
deriving DecidableEq, Repr

/-- An error report (R240 to R244), the sum type that D10 asks of a model. -/
inductive Err where
  /-- code 1: wrong length or bad marker (R241) -/
  | malformedFrame
  /-- code 2: a digit's pattern is none of the ten (R242), with position, 7-bit pattern and digit byte (R94) -/
  | invalidDigitPattern (pos : BitVec 2) (pattern : Pattern) (byte : Byte)
  /-- code 3: end of stream (R243) -/
  | streamClosed
deriving DecidableEq, Repr

/-- The record ERROR, four fields of 19 bits together (R94). -/
structure ErrRecord where
  kind : BitVec 2
  pos : BitVec 2
  pattern : Pattern
  byte : Byte
deriving DecidableEq, Repr

/-- The output signals of one step (R86, R82, R213). A payload exists only with its strobe (U5). -/
structure Outputs where
  /-- `f_valid`, `f_data` (R87) -/
  frame : Option Frame
  /-- `rd_valid`, READING (R90) -/
  reading : Option Reading
  /-- `err_valid`, ERROR (R94) -/
  error : Option Err
  /-- READING of the standalone Decoder (R213), of which the model has one (assumption log 18) -/
  aReading : Option Reading
  /-- ERROR of the standalone Decoder or Recognizer (R213, R159) -/
  aError : Option Err
  /-- `s_ready` in the step (R82) -/
  sReady : Bool
  /-- `closed` in the step, before its writes take effect (R82, R299) -/
  closed : Bool
deriving DecidableEq, Repr

/-- The four assembled digit bytes (R172). -/
structure DigitBytes where
  d3 : Byte
  d2 : Byte
  d1 : Byte
  d0 : Byte
deriving DecidableEq, Repr

/-- MODEL's own: the results of the Decoder's stages when the host evaluates them one at a time ("the operation works
on results of earlier stages", R103). The pipeline's Decoder and the standalone Decoder do not use them. -/
structure Stages where
  /-- DEC.VALIDATE passed (R171); shown to the host, read by no operation: a later stage evaluated by itself is not
  gated by it (DESIGN CHOICE, assumption log 17) -/
  valid : Bool
  /-- Digit3 to Digit0 (R172) -/
  digitBytes : DigitBytes
  /-- marker of the digit byte DEC.SPLIT was given (R173) -/
  marker : Bool
  /-- pattern of the digit byte DEC.SPLIT was given (R173) -/
  pattern : Pattern
  /-- digit and `ok` of the digit table (R30, R153) -/
  recog : Option (BitVec 4)
  /-- d3 d2 d1 d0 (R174) -/
  digits : BitVec 16
  /-- N (R175) -/
  mag : BitVec 14
  /-- e of the exact form N / 10^e (R176) -/
  exp : BitVec 3
  /-- v of the floating-point form (R176) -/
  scaled : F64
  /-- the sign of the signed value (R177) -/
  neg : Bool
  /-- v after the sign (R177) -/
  signed : F64
  /-- mode flags (R200) -/
  flags : BitVec 4
  /-- prefix mask (R201) -/
  pfx : BitVec 5
  /-- base unit code (R202) -/
  base : BitVec 4
  /-- length of the unit string (R203) -/
  unitLen : BitVec 4
  /-- characters of the unit string (R203) -/
  unitChars : BitVec 72
  /-- `rd_value` (R204) -/
  value : F64
  /-- the frame ENCODE built (R113) -/
  built : Frame
deriving DecidableEq, Repr

/-- The input signals of the Synchronizer in one step (R82). -/
structure Ports where
  rst : Bool
  valid : Bool
  eos : Bool
  data : Byte
deriving DecidableEq, Repr

/-- MODEL's own: what the host presents in one step (R303). -/
inductive Request where
  /-- the input signals, and possibly a DFRAME (`d_len`, `d_frame`) at the standalone Decoder in the same step (R95,
  R213, R281). R258 allows any number of Decoder instances; that one stands beside the pipeline, so that a step takes at
  most one DFRAME, is a DESIGN CHOICE (assumption log 18) -/
  | ports (p : Ports) (dframe : Option (BitVec 4 × Frame))
  /-- one operation of the table, evaluated by itself (assumption log 4) -/
  | code (c : Code)
deriving DecidableEq, Repr

/-- The state of the model. -/
structure State where
  /-- the older byte of the sliding window (R20, R21) -/
  win1 : Byte
  /-- the newer byte of the sliding window (R20, R21) -/
  win0 : Byte
  /-- HUNT, PAYLOAD or CLOSED (R20, R24) -/
  phase : Phase
  /-- how many payload bytes of the frame are in `fbuf` (R20, R23) -/
  cnt : BitVec 3
  /-- the frame being assembled (R20, R22) -/
  fbuf : Vector Byte 10
  /-- MODEL's own: numbers the free values taken (assumption log 2) -/
  freeCtr : Nat
  /-- MODEL's own: the host's inputs of the next steps, one per step, oldest first (assumption log 4) -/
  inbox : List Request
  /-- MODEL's own: the output signals of the last step (R86, assumption log 3) -/
  out : Outputs
  /-- MODEL's own: results of stages evaluated one at a time (R103, assumption log 5) -/
  stages : Stages
deriving DecidableEq, Repr

/-- The faults of a step: none. The spec's errors are reports, not stops (R240), and no access of the block faults
(R60, R61, R245). Safe. -/
inductive Fault where
deriving DecidableEq, Repr

/-- The refusals of a step. -/
inductive Refusal where
  /-- raised by an arm of `exec` that has no meaning yet; no arm raises it now. Safe. -/
  | notModelled (mnemonic : String)
  /-- raised by SYN.NOSTEP when a symbol is presented while `phase == CLOSED`: "Model it as a refusal, not as an
  operation" (R109, U7). Safe. -/
  | symbolWhileClosed
  /-- raised by a Synchronizer operation asked for in a state in which R101 does not select it; the step never does so
  with the input signals (assumption log 7). Safe. -/
  | notSelected
  /-- raised by the step when the decoder rejects the presented word (R24, R103, U8). Safe. -/
  | undecodable (reason : Reject)
deriving DecidableEq, Repr

/-- No output in the reset step: all strobes 0, `s_ready = 0` (R281). -/
def Outputs.reset : Outputs :=
  { frame := none, reading := none, error := none, aReading := none, aError := none, sReady := false, closed := false }

/-- The stage results before any stage has been evaluated (DESIGN CHOICE, assumption log 5). -/
def Stages.reset : Stages :=
  { valid := false, digitBytes := ⟨0, 0, 0, 0⟩, marker := false, pattern := 0, recog := none, digits := 0, mag := 0
    exp := 0, scaled := 0, neg := false, signed := 0, flags := 0, pfx := 0, base := 0, unitLen := 0, unitChars := 0
    value := 0, built := 0 }

/-- The machine right after reset (R35, R281). `fbuf` has no reset value in the spec; the model names ten bytes 0x00
(DESIGN CHOICE, unsafe, assumption log 1). -/
def State.reset : State :=
  { win1 := 0x00, win0 := 0x00, phase := .hunt, cnt := 0, fbuf := Vector.replicate 10 0x00
    freeCtr := 0, inbox := [], out := Outputs.reset, stages := Stages.reset }

end Sys2Proof.Machine
end

