-- ==== Sys2Proof/Machine/Params.lean ====
section
/-! DEFINITION. The named constants of R8 and R9 and the read-only tables of R30 and R31, with the values this hardware
takes. -/

namespace Sys2Proof.Machine

/-- `SYNC0`, the first marker byte (R8). -/
def sync0 : Byte := 0xA5
/-- `SYNC1`, the second marker byte (R8). -/
def sync1 : Byte := 0xA5
/-- `WINDOW_LEN` in bytes (R8). -/
def windowLen : Nat := 2
/-- `PAYLOAD_LEN` in bytes (R8). -/
def payloadLen : Nat := 8
/-- `FRAME_LEN = WINDOW_LEN + PAYLOAD_LEN` (R8). -/
def frameLen : Nat := windowLen + payloadLen
/-- `WIN_RESET`, also `WINDOW_AFTER_FRAME` (R9): the older byte. -/
def winReset1 : Byte := 0x00
/-- `WIN_RESET`, also `WINDOW_AFTER_FRAME` (R9): the newer byte. -/
def winReset0 : Byte := 0x00
/-- The counter value at which the next payload byte is the last (R23, R125). -/
def cntLast : BitVec 3 := 7

/-- The code of a phase (R24). -/
def Phase.code : Phase → BitVec 2
  | .hunt => 0b00
  | .payload => 0b01
  | .closed => 0b10

/-- The phase of a code; 0b11 is no phase (U8). -/
def Phase.ofCode (c : BitVec 2) : Option Phase :=
  if c = 0b00 then some .hunt else if c = 0b01 then some .payload else if c = 0b10 then some .closed else none

/-- `LUT`, the digit table: ten patterns and their digits (R8, R152). -/
def lut : List (Pattern × BitVec 4) :=
  [(0x7D, 0), (0x05, 1), (0x5B, 2), (0x1F, 3), (0x27, 4), (0x3E, 5), (0x7E, 6), (0x15, 7), (0x7F, 8), (0x3F, 9)]

/-- The inverse table `PAT` of the frame builder (R160). -/
def pat (d : Fin 10) : Pattern :=
  #v[0x7D#7, 0x05#7, 0x5B#7, 0x1F#7, 0x27#7, 0x3E#7, 0x7E#7, 0x15#7, 0x7F#7, 0x3F#7][d]

/-- `DP_DIVISORS` (R8): Digit0's marker. -/
def dpDivisor0 : Nat := 10
/-- `DP_DIVISORS` (R8): Digit1's marker. -/
def dpDivisor1 : Nat := 100
/-- `DP_DIVISORS` (R8): Digit2's marker. -/
def dpDivisor2 : Nat := 1000

/-- The characters of the prefix mask's bits 0 to 4: `n u m k M` (R31, R92). -/
def prefixChars : List Byte := [0x6E, 0x75, 0x6D, 0x6B, 0x4D]

/-- The base unit tokens by code (R93), in the character codes of R92. Codes 9 to 15 are never produced. -/
def baseToken (code : BitVec 4) : List Byte :=
  if code = 1 then [0x4F, 0x68, 0x6D]             -- Ohm
  else if code = 2 then [0x25]                    -- %
  else if code = 3 then [0x46]                    -- F
  else if code = 4 then [0x64, 0x65, 0x67, 0x46]  -- degF
  else if code = 5 then [0x64, 0x65, 0x67, 0x43]  -- degC
  else if code = 6 then [0x41]                    -- A
  else if code = 7 then [0x56]                    -- V
  else if code = 8 then [0x48, 0x7A]              -- Hz
  else []

/-- `UNIT_STRING_MAX`, characters (R9). -/
def unitStringMax : Nat := 9

/-- The 16 payload bits no rule reads: `f[6][5:4]`, `f[7][4:3]`, `f[7][0]`, `f[8][5:4]`, `f[8][0]`, `f[9]` (R66). -/
def untestedMask : Frame := 0xFF311930000000000000

end Sys2Proof.Machine
end

