-- ==== Sys2Proof/Machine/Ops.lean ====
section
/-! DEFINITION. The named operations over the registers and the frame buffer (R21 to R25, R60, R61), the bus form of a
frame (R83, R87), emitting an output (R86) and raising an error (R240). -/

namespace Sys2Proof.Machine

/-- The two output channels: the pipeline's (R86) and the standalone units' own (R213). -/
inductive Channel where
  | pipeline
  | alone
deriving DecidableEq, Repr

/-- The memory read primitive `FrameRead(f, i) = f[i]` (R61), on the bus form `f[i] = f_data[8i+7:8i]` (R83). -/
def frameByte (f : Frame) (i : Nat) : Byte := f.extractLsb' (8 * i) 8

/-- Bit `k` of frame byte `i`, as a Boolean (R10, R13). -/
def frameBit (f : Frame) (i k : Nat) : Bool := (frameByte f i).getLsbD k

/-- The memory write primitive `fbuf[i] <- v`, `i` in 0..9 (R60). -/
def writeFbuf (b : Vector Byte 10) (i : Nat) (v : Byte) : Vector Byte 10 := b.setIfInBounds i v

/-- The ten bytes of the buffer on the bus, byte `i` in bits 8i+7..8i (R83, R87). -/
def busOf (b : Vector Byte 10) : Frame :=
  b[9] ++ b[8] ++ b[7] ++ b[6] ++ b[5] ++ b[4] ++ b[3] ++ b[2] ++ b[1] ++ b[0]

/-- The frame position of the next payload byte, `2 + cnt` (R25, R137). -/
def fillIndex (cnt : BitVec 3) : Nat := windowLen + cnt.toNat

/-- `win1 <- hi`, `win0 <- lo` (R21). -/
def State.setWindow (s : State) (hi lo : Byte) : State := { s with win1 := hi, win0 := lo }

/-- `phase <- p`, `cnt <- n`: the sequencer (R24). -/
def State.setSeq (s : State) (p : Phase) (n : BitVec 3) : State := { s with phase := p, cnt := n }

/-- `fbuf[i] <- v` (R60). -/
def State.storeByte (s : State) (i : Nat) (v : Byte) : State := { s with fbuf := writeFbuf s.fbuf i v }

/-- The frame buffer's contents become unspecified: a fresh free value (R128, U4, assumption log 2). -/
def State.forgetFbuf (s : State) : State :=
  { s with fbuf := Config.freeFbuf s.freeCtr, freeCtr := s.freeCtr + 1 }

/-- The stage results become `st`. -/
def State.setStages (s : State) (st : Stages) : State := { s with stages := st }

/-- The output signals become `o`. -/
def State.setOut (s : State) (o : Outputs) : State := { s with out := o }

/-- The flag `closed`, `phase == CLOSED` (R26). -/
def State.isClosed (s : State) : Bool := s.phase == .closed

/-- `s_ready = 1` exactly when `rst = 0` and `phase != CLOSED` (R82). -/
def State.ready (s : State) (rst : Bool) : Bool := !rst && !s.isClosed

/-- A step begins: all strobes are 0 until something is emitted, the levels are those of the step (R82, R86, R299). -/
def State.startStep (s : State) (rst : Bool) : State :=
  s.setOut { frame := none, reading := none, error := none, aReading := none, aError := none
             sReady := s.ready rst, closed := s.isClosed }

/-- The step's input is taken from the host's list. -/
def State.popInbox (s : State) : State := { s with inbox := s.inbox.drop 1 }

/-- `emit Frame(f)` (R86, R87). -/
def State.emitFrame (s : State) (f : Frame) : State := s.setOut { s.out with frame := some f }

/-- `emit` a reading on a channel: its strobe is 1 and the channel's error strobe is 0 (R86). -/
def State.emitReading (s : State) (c : Channel) (r : Reading) : State :=
  match c with
  | .pipeline => s.setOut { s.out with reading := some r, error := none }
  | .alone => s.setOut { s.out with aReading := some r, aError := none }

/-- TAKING AN EXCEPTION: `raise e` (R240). The channel shows the error report in this step and no normal result;
"nothing else happens: no register is saved, no mode changes, no control transfer, no retry". There is no return
operation beside it: "There is nothing to return from and nothing to restore" (R251). -/
def State.raise (s : State) (c : Channel) (e : Err) : State :=
  match c with
  | .pipeline => s.setOut { s.out with error := some e, reading := none }
  | .alone => s.setOut { s.out with aError := some e, aReading := none }

/-- The error record of a report (R94, R244). -/
def Err.record : Err → ErrRecord
  | .malformedFrame => ⟨1, 0, 0, 0⟩
  | .invalidDigitPattern pos pattern byte => ⟨2, pos, pattern, byte⟩
  | .streamClosed => ⟨3, 0, 0, 0⟩

/-- The error record on the output when there may be no error: `err_kind = 0`, "no error" (R94). -/
def errRecordOf : Option Err → ErrRecord
  | none => ⟨0, 0, 0, 0⟩
  | some e => e.record

/-- Go on with a next state; a stop stays a stop. -/
def andThen (o : Host.Outcome State Fault Refusal) (k : State → Host.Outcome State Fault Refusal) :
    Host.Outcome State Fault Refusal :=
  match o with
  | .next s => k s
  | .fault r => .fault r
  | .refused r => .refused r

end Sys2Proof.Machine
end

