-- ==== Sys2Proof/Machine/Operands.lean ====
section
/-! DEFINITION. Every operand the operations form: the input symbol and its selector word (R81, R82, R103), the digit
bytes assembled from frame nibbles (R88, R172), marker and pattern (R173), the digit table (R152), and the Decoder's
input as a byte list and as DFRAME (R95). -/

namespace Sys2Proof.Machine

/-- An input symbol (R15, R81). -/
inductive Symbol where
  | byte (b : Byte)
  | eos
  | idle
deriving DecidableEq, Repr

/-- The symbol of a SYM format value `e dddddddd` that is presented (R81). -/
def symbolOfBits (w : BitVec 9) : Symbol := if w.getLsbD 8 then .eos else .byte (w.extractLsb' 0 8)

/-- The symbol of a step, from the input signals and `s_ready` (R82). -/
def Ports.symbol (p : Ports) (ready : Bool) : Symbol :=
  if p.valid && ready then (if p.eos then .eos else .byte p.data) else .idle

/-- The input signals that present a symbol, with `rst = 0` (R82). -/
def Symbol.ports : Symbol → Ports
  | .byte b => ⟨false, true, false, b⟩
  | .eos => ⟨false, true, true, 0⟩
  | .idle => ⟨false, false, false, 0⟩

/-- Nothing presented. -/
def Ports.idle : Ports := Symbol.idle.ports

/-- The selector word `sel[23:0]` that the input signals and the registers form (R103). -/
def selWord (p : Ports) (s : State) : Sel :=
  (symBits p.rst s.phase.code s.cnt p.valid p.eos p.data s.win0).setWidth 88

/-- `high(b)`: bits 7..4 in place (R12). -/
def high (b : Byte) : Byte := b &&& 0xF0
/-- `low(b)`: bits 3..0 in place (R12). -/
def low (b : Byte) : Byte := b &&& 0x0F

/-- `(f[i] & 0xF0) | (f[i+1] & 0x0F)` (R54). -/
def digitByteAt (f : Frame) (i : Nat) : Byte := high (frameByte f i) ||| low (frameByte f (i + 1))

/-- The four digit bytes of a frame (R88, R172). -/
def assemble (f : Frame) : DigitBytes :=
  { d3 := digitByteAt f 2, d2 := digitByteAt f 3, d1 := digitByteAt f 4, d0 := digitByteAt f 5 }

/-- The marker of a digit byte: bit 7 (R85, R173). -/
def markerOf (d : Byte) : Bool := d.getLsbD 7
/-- The pattern of a digit byte: bits 6..0 (R85, R173). -/
def patternOf (d : Byte) : Pattern := d.extractLsb' 0 7

/-- The decimal-point markers: bit 0 Digit0, bit 1 Digit1, bit 2 Digit2 (R90, R173). -/
def dpOf (b : DigitBytes) : BitVec 3 :=
  BitVec.ofBool (markerOf b.d2) ++ BitVec.ofBool (markerOf b.d1) ++ BitVec.ofBool (markerOf b.d0)

/-- The sign marker: Digit3's (R173). -/
def negOf (b : DigitBytes) : Bool := markerOf b.d3

/-- The digit table: the digit of a pattern, or none (`ok = 0`) for the other 118 (R30, R152, R154). -/
def recognise (p : Pattern) : Option (BitVec 4) := (lut.find? (fun row => row.1 == p)).map (·.2)

/-- DIG.RECOG with the position and digit byte its caller supplies for the report (R153). -/
def recogniseAt (pos : BitVec 2) (d : Byte) : Except Err (BitVec 4) :=
  match recognise (patternOf d) with
  | some digit => .ok digit
  | none => .error (.invalidDigitPattern pos (patternOf d) d)

/-- The report of a recogniser called on its own: position 0 and the pattern as the byte (R159). -/
def aloneError (d : Byte) : Err := .invalidDigitPattern 0 (patternOf d) ((patternOf d).setWidth 8)

/-- Four digits in the layout of `rd_digits` (R90). -/
def packDigits (d3 d2 d1 d0 : BitVec 4) : BitVec 16 := d3 ++ d2 ++ d1 ++ d0

/-- The decimal digit at position `n` (3 to 0) of `rd_digits` (R90). -/
def digitAt (digits : BitVec 16) (n : Nat) : BitVec 4 := digits.extractLsb' (4 * n) 4

/-- Recognise the four digits in the order 3, 2, 1, 0; the first failing one is reported (R174, R248). -/
def recogniseAll (b : DigitBytes) : Except Err (BitVec 16) := do
  let d3 ← recogniseAt 3 b.d3
  let d2 ← recogniseAt 2 b.d2
  let d1 ← recogniseAt 1 b.d1
  let d0 ← recogniseAt 0 b.d0
  return packDigits d3 d2 d1 d0

/-- DEC.VALIDATE on DFRAME: length, then `f[0]`, then `f[1]` (R171, D23). -/
def wellShaped (len : BitVec 4) (f : Frame) : Bool :=
  len == BitVec.ofNat 4 frameLen && frameByte f 0 == sync0 && frameByte f 1 == sync1

/-- DEC.VALIDATE on a byte list of any length (R171). -/
def wellShapedList (l : List Byte) : Bool :=
  l.length == frameLen && l[0]? == some sync0 && l[1]? == some sync1

/-- `d_frame` of a byte list: byte `i` in bits 8i+7..8i; bytes beyond the tenth are not carried (R95). -/
def frameOfList : List Byte → Nat → Frame
  | [], _ => 0
  | _, 0 => 0
  | b :: t, n + 1 => (frameOfList t n <<< 8) ||| b.setWidth 80

/-- `d_len` of a byte list: its length, or 15 for a list longer than 15 bytes (R95). -/
def lenOfList (l : List Byte) : BitVec 4 := BitVec.ofNat 4 (min l.length 15)

end Sys2Proof.Machine
end

