-- ==== Sys2Proof/Machine/Flags.lean ====
section
/-! DEFINITION. Every flag and field computation on a frame: mode flags (R200), prefix mask and string (R201), base
unit (R202), unit string (R203). They are outputs, not state (R27). -/

namespace Sys2Proof.Machine

/-- `rd_flags = f[2][3:0]`: bit 0 USB, bit 1 Auto, bit 2 DC, bit 3 AC (R200). -/
def modeFlags (f : Frame) : BitVec 4 := (frameByte f 2).extractLsb' 0 4

/-- The prefix bits in the order tested, `PREFIX_BITS`: (byte, bit) of n, u, m, k, M (R8, R201). -/
def prefixBit (f : Frame) : Fin 5 → Bool
  | 0 => frameBit f 6 7
  | 1 => frameBit f 3 7
  | 2 => frameBit f 7 7
  | 3 => frameBit f 7 1
  | 4 => frameBit f 7 5

/-- `rd_prefix`: bit j is the j-th tested prefix bit (R93, R201). -/
def prefixMask (f : Frame) : BitVec 5 :=
  BitVec.ofBool (prefixBit f 4) ++ BitVec.ofBool (prefixBit f 3) ++ BitVec.ofBool (prefixBit f 2) ++
  BitVec.ofBool (prefixBit f 1) ++ BitVec.ofBool (prefixBit f 0)

/-- The characters whose mask bits are set, in the order given; the mask bit of the first is `j` (R201). -/
def maskedChars (mask : BitVec 5) : List Byte → Nat → List Byte
  | [], _ => []
  | c :: t, j => (if mask.getLsbD j then [c] else []) ++ maskedChars mask t (j + 1)

/-- The prefix string: one character per set bit in the order n, u, m, k, M (R201). -/
def prefixString (mask : BitVec 5) : List Byte := maskedChars mask prefixChars 0

/-- The base unit bits in the order tested, `UNIT_BITS`; row `j` gives code `j + 1` (R8, R93, R202). -/
def baseBit (f : Frame) : Fin 8 → Bool
  | 0 => frameBit f 6 6
  | 1 => frameBit f 7 6
  | 2 => frameBit f 7 2
  | 3 => frameBit f 8 7
  | 4 => frameBit f 8 6
  | 5 => frameBit f 8 3
  | 6 => frameBit f 8 2
  | 7 => frameBit f 8 1

/-- One line of the override chain: "if the bit is set then code" replaces the earlier result (R202). -/
def overrideBase (f : Frame) (j : Fin 8) (code : BitVec 4) : BitVec 4 :=
  if baseBit f j then BitVec.ofNat 4 (j.val + 1) else code

/-- `rd_base`: the ordered override chain, last match wins (R202). -/
def baseCode (f : Frame) : BitVec 4 :=
  overrideBase f 7 (overrideBase f 6 (overrideBase f 5 (overrideBase f 4
    (overrideBase f 3 (overrideBase f 2 (overrideBase f 1 (overrideBase f 0 0)))))))

/-- `unit = prefix ++ base` (R203). -/
def unitString (mask : BitVec 5) (code : BitVec 4) : List Byte := prefixString mask ++ baseToken code

/-- The 72-bit field `rd_unit`: character j in bits 8j+7..8j, zero bytes beyond the string (R90, R203). -/
def packChars : List Byte → BitVec 72
  | [] => 0
  | c :: t => (packChars t <<< 8) ||| c.setWidth 72

/-- `rd_unit_len` (R203). -/
def unitLenOf (mask : BitVec 5) (code : BitVec 4) : BitVec 4 := BitVec.ofNat 4 (unitString mask code).length

/-- `rd_unit` (R203). -/
def unitCharsOf (mask : BitVec 5) (code : BitVec 4) : BitVec 72 := packChars (unitString mask code)

end Sys2Proof.Machine
end

