-- ==== Sys2Proof/Machine/FieldDecoders.lean ====
section
/-! DEFINITION. The field decoders, each evaluated by itself (R200 to R202), and their single-bit cases (R103). They
write no register (R100, column "writes"). Evaluated by themselves they run also where DEC.VALIDATE has not passed (DESIGN
CHOICE, unsafe, assumption log 17). -/

namespace Sys2Proof.Machine

/-- A single-bit case of DEC.FLAGS: the flag is set when its frame bit is (R200). -/
def flagCase (set : Bool) (flag : BitVec 4) (s : State) : State :=
  if set then s.setStages { s.stages with flags := s.stages.flags ||| flag } else s

/-- A single-bit case of DEC.PREFIX: the character is in the prefix when its frame bit is set (R201). -/
def prefixCase (f : Frame) (j : Fin 5) (s : State) : State :=
  if prefixBit f j then s.setStages { s.stages with pfx := s.stages.pfx ||| (1#5 <<< j.val) } else s

/-- A single-bit case of DEC.BASE: its code replaces the earlier result when its frame bit is set (R202). -/
def baseCase (f : Frame) (j : Fin 8) (s : State) : State :=
  s.setStages { s.stages with base := overrideBase f j s.stages.base }

/-- DEC.FLAGS (R200). By itself it runs also where DEC.VALIDATE has not passed (DESIGN CHOICE, assumption log 17). -/
def execDecFlags (f : Frame) (s : State) : Host.Outcome State Fault Refusal :=
  .next (s.setStages { s.stages with flags := modeFlags f })

/-- DEC.PREFIX (R201). -/
def execDecPrefix (f : Frame) (s : State) : Host.Outcome State Fault Refusal :=
  .next (s.setStages { s.stages with pfx := prefixMask f })

/-- DEC.BASE (R202). -/
def execDecBase (f : Frame) (s : State) : Host.Outcome State Fault Refusal :=
  .next (s.setStages { s.stages with base := baseCode f })

/-- DEC.FLAGS.usb (R200): `f[2][0]`. -/
def execDecFlagsUsb (f : Frame) (s : State) : Host.Outcome State Fault Refusal :=
  .next (flagCase (frameBit f 2 0) 1 s)

/-- DEC.FLAGS.auto (R200): `f[2][1]`. -/
def execDecFlagsAuto (f : Frame) (s : State) : Host.Outcome State Fault Refusal :=
  .next (flagCase (frameBit f 2 1) 2 s)

/-- DEC.FLAGS.dc (R200): `f[2][2]`. -/
def execDecFlagsDc (f : Frame) (s : State) : Host.Outcome State Fault Refusal :=
  .next (flagCase (frameBit f 2 2) 4 s)

/-- DEC.FLAGS.ac (R200): `f[2][3]`. -/
def execDecFlagsAc (f : Frame) (s : State) : Host.Outcome State Fault Refusal :=
  .next (flagCase (frameBit f 2 3) 8 s)

/-- DEC.PREFIX.n (R201): `f[6][7]`. -/
def execDecPrefixNano (f : Frame) (s : State) : Host.Outcome State Fault Refusal := .next (prefixCase f 0 s)

/-- DEC.PREFIX.u (R201): `f[3][7]`. -/
def execDecPrefixMicro (f : Frame) (s : State) : Host.Outcome State Fault Refusal := .next (prefixCase f 1 s)

/-- DEC.PREFIX.m (R201): `f[7][7]`. -/
def execDecPrefixMilli (f : Frame) (s : State) : Host.Outcome State Fault Refusal := .next (prefixCase f 2 s)

/-- DEC.PREFIX.k (R201): `f[7][1]`. -/
def execDecPrefixKilo (f : Frame) (s : State) : Host.Outcome State Fault Refusal := .next (prefixCase f 3 s)

/-- DEC.PREFIX.M (R201): `f[7][5]`. -/
def execDecPrefixMega (f : Frame) (s : State) : Host.Outcome State Fault Refusal := .next (prefixCase f 4 s)

/-- DEC.BASE.Ohm (R202): `f[6][6]`. -/
def execDecBaseOhm (f : Frame) (s : State) : Host.Outcome State Fault Refusal := .next (baseCase f 0 s)

/-- DEC.BASE.pct (R202): `f[7][6]`. -/
def execDecBasePct (f : Frame) (s : State) : Host.Outcome State Fault Refusal := .next (baseCase f 1 s)

/-- DEC.BASE.F (R202): `f[7][2]`. -/
def execDecBaseFarad (f : Frame) (s : State) : Host.Outcome State Fault Refusal := .next (baseCase f 2 s)

/-- DEC.BASE.degF (R202): `f[8][7]`. -/
def execDecBaseDegF (f : Frame) (s : State) : Host.Outcome State Fault Refusal := .next (baseCase f 3 s)

/-- DEC.BASE.degC (R202): `f[8][6]`. -/
def execDecBaseDegC (f : Frame) (s : State) : Host.Outcome State Fault Refusal := .next (baseCase f 4 s)

/-- DEC.BASE.A (R202): `f[8][3]`. -/
def execDecBaseAmpere (f : Frame) (s : State) : Host.Outcome State Fault Refusal := .next (baseCase f 5 s)

/-- DEC.BASE.V (R202): `f[8][2]`. -/
def execDecBaseVolt (f : Frame) (s : State) : Host.Outcome State Fault Refusal := .next (baseCase f 6 s)

/-- DEC.BASE.Hz (R202): `f[8][1]`. -/
def execDecBaseHertz (f : Frame) (s : State) : Host.Outcome State Fault Refusal := .next (baseCase f 7 s)

end Sys2Proof.Machine
end

