-- ==== Sys2Proof/Machine/Float.lean ====
section
/-! DEFINITION. The binary64 arithmetic of R16 and R181: conversion of a natural, division by an integer with one
rounding to nearest, ties to even, and negation by the sign bit. Total on every word. -/

namespace Sys2Proof.Machine

/-- The binary64 word nearest to `num / den`, ties to even, with the given sign; a zero numerator (or denominator)
gives a zero of that sign. A magnitude beyond the largest finite word gives infinity. -/
def f64Round (neg : Bool) (num den : Nat) : F64 :=
  let sign : F64 := if neg then 0x8000000000000000 else 0
  if num = 0 ∨ den = 0 then sign else
    let guess : Int := (num.log2 : Int) - (den.log2 : Int)
    let below := num * 2 ^ (-guess).toNat < den * 2 ^ guess.toNat
    let e : Int := max (if below then guess - 1 else guess) (-1022)
    let n := num * 2 ^ (52 - e).toNat
    let d := den * 2 ^ (e - 52).toNat
    let q := n / d
    let r := n % d
    let rounded := if 2 * r > d ∨ (2 * r = d ∧ q % 2 = 1) then q + 1 else q
    let magnitude := (e + 1022).toNat * 2 ^ 52 + rounded
    sign ||| BitVec.ofNat 64 (min magnitude (0x7FF * 2 ^ 52))

/-- `F64(n)`: a natural as a binary64 word (R16); exact for every `n` below 2^53. -/
def f64OfNat (n : Nat) : F64 := f64Round false n 1

/-- `fdiv(a, k)`: binary64 division by a positive integer, rounded once (R16). A word whose exponent field is all ones
(an infinity or a NaN, which the block never produces, R181) is returned as it is (PRESUMED, safe, assumption log 9). -/
def fdiv (a : F64) (k : Nat) : F64 :=
  let expo := (a.extractLsb' 52 11).toNat
  let frac := (a.extractLsb' 0 52).toNat
  if expo = 0x7FF then a else
    let m := if expo = 0 then frac else frac + 2 ^ 52
    let x : Int := ((max expo 1 : Nat) : Int) - 1075
    f64Round a.msb (m * 2 ^ x.toNat) (k * 2 ^ (-x).toNat)

/-- `fneg(a)`: "flips the sign bit of `a`" (R16). -/
def fneg (a : F64) : F64 := a ^^^ 0x8000000000000000

/-- Whether a word is finite: its exponent field is not all ones. -/
def f64Finite (a : F64) : Bool := a.extractLsb' 52 11 != 0x7FF

/-- The number that a finite word stands for (1 sign bit, 11 exponent bits, 52 fraction bits, R181). -/
def f64Value (a : F64) : ℚ :=
  let expo := (a.extractLsb' 52 11).toNat
  let frac := (a.extractLsb' 0 52).toNat
  let m : ℚ := if expo = 0 then frac else frac + 2 ^ 52
  let sign : ℚ := if a.msb then -1 else 1
  sign * m * (2 : ℚ) ^ (((max expo 1 : Nat) : Int) - 1075)

end Sys2Proof.Machine
end

