-- ==== Sys2Proof/Machine/Datapath.lean ====
section
/-! DEFINITION. The Decoder's numeric functions (R175 to R177, R204), the reading of a frame (R205), the whole pure
function DECODE (R206) and the frame builder ENCODE (R113). -/

namespace Sys2Proof.Machine

/-- `N = d3*1000 + d2*100 + d1*10 + d0` (R175). -/
def accumulate (digits : BitVec 16) : BitVec 14 :=
  BitVec.ofNat 14 ((digitAt digits 3).toNat * 1000 + (digitAt digits 2).toNat * 100
    + (digitAt digits 1).toNat * 10 + (digitAt digits 0).toNat)

/-- `e = 1*dp0 + 2*dp1 + 3*dp2` (R176). -/
def exponentOf (dp : BitVec 3) : BitVec 3 :=
  (if dp.getLsbD 0 then 1 else 0) + (if dp.getLsbD 1 then 2 else 0) + (if dp.getLsbD 2 then 3 else 0)

/-- One conditional division of the sequence (R176). -/
def divideIf (marker : Bool) (k : Nat) (v : F64) : F64 := if marker then fdiv v k else v

/-- The floating-point form of DEC.DPSCALE: divided by 10, then by 100, then by 1000, each rounded (R176, R184). -/
def scale (mag : BitVec 14) (dp : BitVec 3) : F64 :=
  divideIf (dp.getLsbD 2) dpDivisor2 (divideIf (dp.getLsbD 1) dpDivisor1
    (divideIf (dp.getLsbD 0) dpDivisor0 (f64OfNat mag.toNat)))

/-- DEC.SIGN on a binary64 word (R177). -/
def applySign (neg : Bool) (v : F64) : F64 := if neg then fneg v else v

/-- `rd_value`: scaled, then signed (R204). -/
def valueOf (mag : BitVec 14) (dp : BitVec 3) (neg : Bool) : F64 := applySign neg (scale mag dp)

/-- The exact value `(-1)^neg * N / 10^e` (R91, R179). -/
def exactValue (mag : BitVec 14) (dp : BitVec 3) (neg : Bool) : ℚ :=
  (if neg then -1 else 1) * (mag.toNat : ℚ) / 10 ^ (exponentOf dp).toNat

/-- The reading of a frame whose four digits are recognised (R205, R206). -/
def readingOf (f : Frame) (digits : BitVec 16) : Reading :=
  let b := assemble f
  let mag := accumulate digits
  { digits := digits, mag := mag, dp := dpOf b, neg := negOf b
    value := valueOf mag (dpOf b) (negOf b)
    flags := modeFlags f
    pfx := prefixMask f, base := baseCode f
    unitLen := unitLenOf (prefixMask f) (baseCode f)
    unitChars := unitCharsOf (prefixMask f) (baseCode f) }

/-- DECODE on DFRAME (R206): DEC.VALIDATE, then the digits in the order 3, 2, 1, 0, then the reading. -/
def decodeDframe (len : BitVec 4) (f : Frame) : Except Err Reading :=
  if wellShaped len f then
    match recogniseAll (assemble f) with
    | .ok digits => .ok (readingOf f digits)
    | .error e => .error e
  else .error .malformedFrame

/-- DECODE on a byte list of any length (R206): the list's own length decides (R171). -/
def decodeList (l : List Byte) : Except Err Reading :=
  if wellShapedList l then decodeDframe (BitVec.ofNat 4 frameLen) (frameOfList l frameLen)
  else .error .malformedFrame

/-- A result on a channel: a reading or an error, never both (R206, R207). -/
def State.emitResult (s : State) (c : Channel) (r : Except Err Reading) : State :=
  match r with
  | .ok reading => s.emitReading c reading
  | .error e => s.raise c e

/-- "if it emitted Frame(F): r = DECODE(F) -- same step, no state" (R207). -/
def State.decodeEmitted (s : State) : State :=
  match s.out.frame with
  | some f => s.emitResult .pipeline (decodeDframe (BitVec.ofNat 4 frameLen) f)
  | none => s

/-- The digit byte of a digit and its marker: `PAT(d) | (m << 7)` (R113). -/
def encodeDigit (d : Fin 10) (marker : Bool) : Byte := BitVec.ofBool marker ++ pat d

/-- A bit at position `k` of a byte: `b << k` (R113). -/
def bitAt (b : Bool) (k : Nat) : Byte := (BitVec.ofBool b).setWidth 8 <<< k

/-- The ten bytes that ENCODE builds (R113). -/
def encodeBytes (a : EncodeArgs) : Vector Byte 10 :=
  let D3 := encodeDigit a.d3 a.neg
  let D2 := encodeDigit a.d2 a.dp2
  let D1 := encodeDigit a.d1 a.dp1
  let D0 := encodeDigit a.d0 a.dp0
  #v[sync0, sync1,
     high D3 ||| bitAt a.ac 3 ||| bitAt a.dc 2 ||| bitAt a.auto 1 ||| bitAt a.usb 0,
     high D2 ||| low D3,
     high D1 ||| low D2,
     high D0 ||| low D1,
     bitAt a.nano 7 ||| bitAt a.ohm 6 ||| low D0,
     bitAt a.milli 7 ||| bitAt a.pct 6 ||| bitAt a.mega 5 ||| bitAt a.farad 2 ||| bitAt a.kilo 1,
     bitAt a.degF 7 ||| bitAt a.degC 6 ||| bitAt a.ampere 3 ||| bitAt a.volt 2 ||| bitAt a.hertz 1,
     0x00]

/-- ENCODE: the frame built from its arguments (R113). -/
def buildFrame (a : EncodeArgs) : Frame := busOf (encodeBytes a)

end Sys2Proof.Machine
end

