-- ==== Sys2Proof/Machine/Formatter.lean ====
section
/-! DEFINITION. The formatter stages, each evaluated by itself (R203 to R205), the standalone Decoder (R206, R213), the
frame builder (R113) and the row of untested bits (R106). They write no register (R100, column "writes"). The formatter
stages evaluated by themselves run also after an earlier stage raised (DESIGN CHOICE, unsafe, assumption log 17). -/

namespace Sys2Proof.Machine

/-- FMT.UNIT (R203): the unit string of the prefix and base results. -/
def execFmtUnit (s : State) : Host.Outcome State Fault Refusal :=
  .next (s.setStages { s.stages with
    unitLen := unitLenOf s.stages.pfx s.stages.base, unitChars := unitCharsOf s.stages.pfx s.stages.base })

/-- FMT.VALUE (R204): N divided by 10, 100, 1000 where marked, then negated where marked. -/
def execFmtValue (s : State) : Host.Outcome State Fault Refusal :=
  .next (s.setStages { s.stages with
    value := valueOf s.stages.mag (dpOf s.stages.digitBytes) (negOf s.stages.digitBytes) })

/-- The record assembled from the stages' results (R205). -/
def stagesReading (st : Stages) : Reading :=
  { digits := st.digits, mag := st.mag, dp := dpOf st.digitBytes, neg := negOf st.digitBytes, value := st.value
    flags := st.flags, pfx := st.pfx, base := st.base, unitLen := st.unitLen, unitChars := st.unitChars }

/-- FMT.READING (R205): the record is output on the standalone channel. By itself it outputs the results that stand, also
where DEC.VALIDATE or DEC.DIGITS raised before it (DESIGN CHOICE, assumption log 17). -/
def execFmtReading (s : State) : Host.Outcome State Fault Refusal :=
  .next (s.emitReading .alone (stagesReading s.stages))

/-- DECODE (R206) at the standalone Decoder (R213): a reading, MalformedFrame or InvalidDigitPattern. -/
def execDecodeFrame (len : BitVec 4) (f : Frame) (s : State) : Host.Outcome State Fault Refusal :=
  .next (s.emitResult .alone (decodeDframe len f))

/-- ENCODE (R113), a test aid and not hardware: the frame it builds. -/
def execEncodeFrame (a : EncodeArgs) (s : State) : Host.Outcome State Fault Refusal :=
  .next (s.setStages { s.stages with built := buildFrame a })

/-- FRAME.UNTESTED (R106): "ignored whatever their value"; nothing reads the 16 bits, nothing changes. -/
def execFrameUntested (_f : Frame) (s : State) : Host.Outcome State Fault Refusal := .next s

end Sys2Proof.Machine
end

