-- ==== Sys2Proof/Machine/NumericPath.lean ====
section
/-! DEFINITION. The numeric stages of the Decoder, each evaluated by itself (R171 to R177). Operands without a selector
word are the earlier stages' results (R103). They write no register (R100, column "writes"). A stage evaluated by itself
runs on the results that stand, also after an earlier stage raised (DESIGN CHOICE, unsafe, assumption log 17). -/

namespace Sys2Proof.Machine

/-- DEC.VALIDATE (R171): pass, or raise MalformedFrame. -/
def execDecValidate (len : BitVec 4) (f : Frame) (s : State) : Host.Outcome State Fault Refusal :=
  if wellShaped len f then .next (s.setStages { s.stages with valid := true })
  else .next ((s.setStages { s.stages with valid := false }).raise .alone .malformedFrame)

/-- DEC.VALIDATE.PASS (R171): the outcome pass; it does not apply to another list. -/
def execDecValidatePass (len : BitVec 4) (f : Frame) (s : State) : Host.Outcome State Fault Refusal :=
  if wellShaped len f then .next (s.setStages { s.stages with valid := true }) else .next s

/-- DEC.VALIDATE.FAIL (R171): the outcome MalformedFrame; it does not apply to a well-shaped list. -/
def execDecValidateFail (len : BitVec 4) (f : Frame) (s : State) : Host.Outcome State Fault Refusal :=
  if wellShaped len f then .next s
  else .next ((s.setStages { s.stages with valid := false }).raise .alone .malformedFrame)

/-- DEC.ASSEMBLE (R172): the four digit bytes. By itself it runs also where DEC.VALIDATE has not passed, for which the
spec gives no result (DESIGN CHOICE, assumption log 17). -/
def execDecAssemble (f : Frame) (s : State) : Host.Outcome State Fault Refusal :=
  .next (s.setStages { s.stages with digitBytes := assemble f })

/-- DEC.SPLIT (R173): marker and pattern of one digit byte. -/
def execDecSplit (d : Byte) (s : State) : Host.Outcome State Fault Refusal :=
  .next (s.setStages { s.stages with marker := markerOf d, pattern := patternOf d })

/-- DEC.DIGITS (R174): the four digits, or the first InvalidDigitPattern in the order 3, 2, 1, 0. -/
def execDecDigits (s : State) : Host.Outcome State Fault Refusal :=
  match recogniseAll s.stages.digitBytes with
  | .ok digits => .next (s.setStages { s.stages with digits := digits })
  | .error e => .next (s.raise .alone e)

/-- DEC.BCDACC (R175): N. -/
def execDecBcdacc (s : State) : Host.Outcome State Fault Refusal :=
  .next (s.setStages { s.stages with mag := accumulate s.stages.digits })

/-- DEC.DPSCALE (R176): the exponent of the exact form and the floating-point form. -/
def execDecDpscale (s : State) : Host.Outcome State Fault Refusal :=
  let dp := dpOf s.stages.digitBytes
  .next (s.setStages { s.stages with exp := exponentOf dp, scaled := scale s.stages.mag dp })

/-- One line of DEC.DPSCALE: "if dp then v = fdiv(v, k)", which adds to the exponent (R176). -/
def scaleCase (marker : Bool) (e : BitVec 3) (k : Nat) (s : State) : State :=
  if marker then s.setStages { s.stages with exp := s.stages.exp + e, scaled := fdiv s.stages.scaled k } else s

/-- DEC.DPSCALE.dp0 (R176): Digit0's marker, `f[5][7]`. -/
def execDecDpscaleDp0 (f : Frame) (s : State) : Host.Outcome State Fault Refusal :=
  .next (scaleCase (frameBit f 5 7) 1 dpDivisor0 s)

/-- DEC.DPSCALE.dp1 (R176): Digit1's marker, `f[4][7]`. -/
def execDecDpscaleDp1 (f : Frame) (s : State) : Host.Outcome State Fault Refusal :=
  .next (scaleCase (frameBit f 4 7) 2 dpDivisor1 s)

/-- DEC.DPSCALE.dp2 (R176): Digit2's marker, `f[3][7]`. -/
def execDecDpscaleDp2 (f : Frame) (s : State) : Host.Outcome State Fault Refusal :=
  .next (scaleCase (frameBit f 3 7) 3 dpDivisor2 s)

/-- DEC.SIGN (R177): the sign marker applied to the scaled magnitude. -/
def execDecSign (s : State) : Host.Outcome State Fault Refusal :=
  let neg := negOf s.stages.digitBytes
  .next (s.setStages { s.stages with neg := neg, signed := applySign neg s.stages.scaled })

/-- DEC.SIGN.neg (R177): the case of the sign marker, `f[2][7]`. -/
def execDecSignNeg (f : Frame) (s : State) : Host.Outcome State Fault Refusal :=
  if frameBit f 2 7 then
    .next (s.setStages { s.stages with neg := true, signed := applySign true s.stages.scaled })
  else .next s

end Sys2Proof.Machine
end

