-- ==== Sys2Proof/Machine/Recognizer.lean ====
section
/-! DEFINITION. The operations of the Digit Recognizer (R153, R152, R154), called on their own (R159). They write no
register; the digit or its absence is the stage result `recog`, an invalid pattern is an error report. -/

namespace Sys2Proof.Machine

/-- The digit table's output for the host: a digit with `ok = 1`, or `ok = 0` (R30). -/
def State.setRecog (s : State) (r : Option (BitVec 4)) : State := s.setStages { s.stages with recog := r }

/-- One row of the table (R152): if the pattern is the row's, the digit is returned; else the row does not apply. -/
def recogniseCase (d : Byte) (digit : BitVec 4) (s : State) : State :=
  if recognise (patternOf d) = some digit then s.setRecog (some digit) else s

/-- The case of an invalid pattern (R154): `raise InvalidDigitPattern`, no digit. -/
def recogniseInvalid (d : Byte) (s : State) : State :=
  if recognise (patternOf d) = none then (s.setRecog none).raise .alone (aloneError d) else s

/-- DIG.RECOG (R153). -/
def execDigRecog (d : Byte) (s : State) : Host.Outcome State Fault Refusal :=
  match recognise (patternOf d) with
  | some digit => .next (s.setRecog (some digit))
  | none => .next ((s.setRecog none).raise .alone (aloneError d))

/-- DIG.0 (R152). -/
def execDig0 (d : Byte) (s : State) : Host.Outcome State Fault Refusal := .next (recogniseCase d 0 s)

/-- DIG.1 (R152). -/
def execDig1 (d : Byte) (s : State) : Host.Outcome State Fault Refusal := .next (recogniseCase d 1 s)

/-- DIG.2 (R152). -/
def execDig2 (d : Byte) (s : State) : Host.Outcome State Fault Refusal := .next (recogniseCase d 2 s)

/-- DIG.3 (R152). -/
def execDig3 (d : Byte) (s : State) : Host.Outcome State Fault Refusal := .next (recogniseCase d 3 s)

/-- DIG.4 (R152). -/
def execDig4 (d : Byte) (s : State) : Host.Outcome State Fault Refusal := .next (recogniseCase d 4 s)

/-- DIG.5 (R152). -/
def execDig5 (d : Byte) (s : State) : Host.Outcome State Fault Refusal := .next (recogniseCase d 5 s)

/-- DIG.6 (R152). -/
def execDig6 (d : Byte) (s : State) : Host.Outcome State Fault Refusal := .next (recogniseCase d 6 s)

/-- DIG.7 (R152). -/
def execDig7 (d : Byte) (s : State) : Host.Outcome State Fault Refusal := .next (recogniseCase d 7 s)

/-- DIG.8 (R152). -/
def execDig8 (d : Byte) (s : State) : Host.Outcome State Fault Refusal := .next (recogniseCase d 8 s)

/-- DIG.9 (R152). -/
def execDig9 (d : Byte) (s : State) : Host.Outcome State Fault Refusal := .next (recogniseCase d 9 s)

/-- DIG.INVALID (R154). -/
def execDigInvalid (d : Byte) (s : State) : Host.Outcome State Fault Refusal := .next (recogniseInvalid d s)

end Sys2Proof.Machine
end

