-- ==== Sys2Proof/Machine/Synchronizer.lean ====
section
/-! DEFINITION. The operations of the Frame Synchronizer (R122 to R129). Each has its effect in the states in which R101
selects it; asked for in another state it is refused by name (assumption log 7). -/

namespace Sys2Proof.Machine

/-- SYN.RESET (R128): HUNT, window and counter cleared, `fbuf` unspecified from here on; no output. -/
def execSynReset (s : State) : Host.Outcome State Fault Refusal :=
  .next ((s.setSeq .hunt 0).setWindow winReset1 winReset0).forgetFbuf

/-- SYN.NOSTEP (R129, line `CLOSED` of R101): nothing changes and nothing is output; a symbol presented is refused
(R109, U7). -/
def execSynNostep (valid : Bool) (s : State) : Host.Outcome State Fault Refusal :=
  if s.isClosed then
    if valid then .refused .symbolWhileClosed else .next s
  else .refused .notSelected

/-- SYN.IDLE (R126): no register changes, no output. -/
def execSynIdle (s : State) : Host.Outcome State Fault Refusal :=
  if s.isClosed then .refused .notSelected else .next s

/-- SYN.CLOSE (R127): `phase <- CLOSED` and raise StreamClosed; the other registers keep their values. -/
def execSynClose (s : State) : Host.Outcome State Fault Refusal :=
  if s.isClosed then .refused .notSelected
  else .next ((s.setSeq .closed s.cnt).raise .pipeline .streamClosed)

/-- SYN.LOCK (R123): the window matches after the shift; the marker goes to `fbuf[0]`, `fbuf[1]`. -/
def execSynLock (s : State) : Host.Outcome State Fault Refusal :=
  if s.phase = .hunt ∧ s.win0 = sync0 then
    .next ((((s.setWindow s.win0 sync1).storeByte 0 sync0).storeByte 1 sync1).setSeq .payload 0)
  else .refused .notSelected

/-- SYN.SHIFT (R122): `win1 <- win0`, `win0 <- b`, when the marker is not complete. -/
def execSynShift (b : Byte) (s : State) : Host.Outcome State Fault Refusal :=
  if s.phase = .hunt ∧ ¬(s.win0 = sync0 ∧ b = sync1) then .next (s.setWindow s.win0 b)
  else .refused .notSelected

/-- SYN.EMIT (R125): the eighth payload byte is stored, the ten bytes are output, counter and window are cleared. -/
def execSynEmit (b : Byte) (s : State) : Host.Outcome State Fault Refusal :=
  if s.phase = .payload ∧ s.cnt = cntLast then
    let t := s.storeByte (fillIndex s.cnt) b
    .next (((t.emitFrame (busOf t.fbuf)).setSeq .hunt 0).setWindow winReset1 winReset0)
  else .refused .notSelected

/-- SYN.FILL (R124): `fbuf[2 + cnt] <- b`, `cnt <- cnt + 1`. -/
def execSynFill (b : Byte) (s : State) : Host.Outcome State Fault Refusal :=
  if s.phase = .payload ∧ s.cnt ≠ cntLast then
    .next ((s.storeByte (fillIndex s.cnt) b).setSeq .payload (s.cnt + 1))
  else .refused .notSelected

end Sys2Proof.Machine
end

