-- ==== Sys2Proof/Machine/Pipe.lean ====
section
/-! DEFINITION. PIPE, the block's top level (R207): the selected Synchronizer operation and, when it emits a frame,
DECODE of that frame in the same step; and the fetch of a step's operation from the host's inputs (R82, R103). -/

namespace Sys2Proof.Machine

/-- The Synchronizer operation that the input signals and the registers select (R101, R103). -/
def selected (p : Ports) (s : State) : Except Reject Instr := decode ⟨.select .sym, selWord p s⟩

/-- Run a Synchronizer operation (R122 to R129); anything else is not one. -/
def runSyn (i : Instr) (s : State) : Host.Outcome State Fault Refusal :=
  match i with
  | .synReset => execSynReset s
  | .synNostep v => execSynNostep v s
  | .synIdle => execSynIdle s
  | .synClose => execSynClose s
  | .synLock => execSynLock s
  | .synShift b => execSynShift b s
  | .synEmit b => execSynEmit b s
  | .synFill b => execSynFill b s
  | _ => .refused .notSelected

/-- PIPE (R207) on the given input signals: the strobes start at 0, the selected Synchronizer operation runs, and an
emitted frame is decoded in the same step. -/
def execPipe (rst valid eos : Bool) (data : Byte) (s : State) : Host.Outcome State Fault Refusal :=
  match selected ⟨rst, valid, eos, data⟩ s with
  | .ok i => andThen (runSyn i (s.startStep rst)) (fun t => .next t.decodeEmitted)
  | .error r => .refused (.undecodable r)

/-- The step's input: the first of the host's list, or nothing presented. -/
def State.input (s : State) : Request :=
  match s.inbox with
  | r :: _ => r
  | [] => .ports Ports.idle none

/-- The word fetched for the step: the selector word of the input signals (R103), or the presented word itself. -/
def State.fetch (s : State) : Code :=
  match s.input with
  | .ports p _ => ⟨.select .sym, selWord p s⟩
  | .code c => c

/-- The DFRAME presented at the standalone Decoder in the step, if any (R213, R281). -/
def State.dframe (s : State) : Option (BitVec 4 × Frame) :=
  match s.input with
  | .ports _ d => d
  | .code _ => none

/-- The standalone Decoder's part of a step: its result on its own outputs (R213). -/
def State.decodeAlone (s : State) (d : Option (BitVec 4 × Frame)) : State :=
  match d with
  | some (len, f) => s.emitResult .alone (decodeDframe len f)
  | none => s

/-- What the step does after its operation: the pipeline decodes an emitted frame (R207), and the standalone Decoder
answers a presented DFRAME (R213). -/
def finishStep (d : Option (BitVec 4 × Frame)) (t : State) : Host.Outcome State Fault Refusal :=
  .next (t.decodeEmitted.decodeAlone d)

/-- The registers a SYM word names (R103): phase (if its code is one), cnt and win0. -/
def State.withSymRegs (s : State) (w : Sel) : State :=
  { s with phase := (Phase.ofCode (w.extractLsb' 21 2)).getD s.phase
           cnt := w.extractLsb' 18 3, win0 := w.extractLsb' 0 8 }

/-- The input signals of a SYM word (R103). -/
def symPorts (w : Sel) : Ports := ⟨selRst w, selValid w, selEos w, selData w⟩

/-- Put a request where the next step takes its input. -/
def State.present (s : State) (r : Request) : State := { s with inbox := r :: s.inbox.drop 1 }

/-- A table word presented to the machine: a SYM word sets the registers and the input signals it is made of (R103), a
word of another format is presented as it is. -/
def State.presentWord (s : State) (fmt : Fmt) (w : Sel) : State :=
  match fmt with
  | .sym => (s.withSymRegs w).present (.ports (symPorts w) none)
  | .digit | .frame | .dframe | .value | .pseudo => s.present (.code ⟨.select fmt, w⟩)

end Sys2Proof.Machine
end

