-- ==== Sys2Proof/Machine/Dispatch.lean ====
section
/-! DEFINITION. `exec`: one arm per operation of the table, each one direct call of its meaning. -/

namespace Sys2Proof.Machine

def exec (i : Instr) (s : State) : Host.Outcome State Fault Refusal :=
  match i with
  | .synReset => Sys2Proof.Machine.execSynReset s
  | .synNostep valid => Sys2Proof.Machine.execSynNostep valid s
  | .synIdle => Sys2Proof.Machine.execSynIdle s
  | .synClose => Sys2Proof.Machine.execSynClose s
  | .synLock => Sys2Proof.Machine.execSynLock s
  | .synShift b => Sys2Proof.Machine.execSynShift b s
  | .synEmit b => Sys2Proof.Machine.execSynEmit b s
  | .synFill b => Sys2Proof.Machine.execSynFill b s
  | .digRecog d => Sys2Proof.Machine.execDigRecog d s
  | .dig0 d => Sys2Proof.Machine.execDig0 d s
  | .dig1 d => Sys2Proof.Machine.execDig1 d s
  | .dig2 d => Sys2Proof.Machine.execDig2 d s
  | .dig3 d => Sys2Proof.Machine.execDig3 d s
  | .dig4 d => Sys2Proof.Machine.execDig4 d s
  | .dig5 d => Sys2Proof.Machine.execDig5 d s
  | .dig6 d => Sys2Proof.Machine.execDig6 d s
  | .dig7 d => Sys2Proof.Machine.execDig7 d s
  | .dig8 d => Sys2Proof.Machine.execDig8 d s
  | .dig9 d => Sys2Proof.Machine.execDig9 d s
  | .digInvalid d => Sys2Proof.Machine.execDigInvalid d s
  | .decValidate len f => Sys2Proof.Machine.execDecValidate len f s
  | .decValidatePass len f => Sys2Proof.Machine.execDecValidatePass len f s
  | .decValidateFail len f => Sys2Proof.Machine.execDecValidateFail len f s
  | .decAssemble f => Sys2Proof.Machine.execDecAssemble f s
  | .decSplit d => Sys2Proof.Machine.execDecSplit d s
  | .decDigits => Sys2Proof.Machine.execDecDigits s
  | .decBcdacc => Sys2Proof.Machine.execDecBcdacc s
  | .decDpscale => Sys2Proof.Machine.execDecDpscale s
  | .decDpscaleDp0 f => Sys2Proof.Machine.execDecDpscaleDp0 f s
  | .decDpscaleDp1 f => Sys2Proof.Machine.execDecDpscaleDp1 f s
  | .decDpscaleDp2 f => Sys2Proof.Machine.execDecDpscaleDp2 f s
  | .decSign => Sys2Proof.Machine.execDecSign s
  | .decSignNeg f => Sys2Proof.Machine.execDecSignNeg f s
  | .decFlags f => Sys2Proof.Machine.execDecFlags f s
  | .decFlagsUsb f => Sys2Proof.Machine.execDecFlagsUsb f s
  | .decFlagsAuto f => Sys2Proof.Machine.execDecFlagsAuto f s
  | .decFlagsDc f => Sys2Proof.Machine.execDecFlagsDc f s
  | .decFlagsAc f => Sys2Proof.Machine.execDecFlagsAc f s
  | .decPrefix f => Sys2Proof.Machine.execDecPrefix f s
  | .decPrefixNano f => Sys2Proof.Machine.execDecPrefixNano f s
  | .decPrefixMicro f => Sys2Proof.Machine.execDecPrefixMicro f s
  | .decPrefixMilli f => Sys2Proof.Machine.execDecPrefixMilli f s
  | .decPrefixKilo f => Sys2Proof.Machine.execDecPrefixKilo f s
  | .decPrefixMega f => Sys2Proof.Machine.execDecPrefixMega f s
  | .decBase f => Sys2Proof.Machine.execDecBase f s
  | .decBaseOhm f => Sys2Proof.Machine.execDecBaseOhm f s
  | .decBasePct f => Sys2Proof.Machine.execDecBasePct f s
  | .decBaseFarad f => Sys2Proof.Machine.execDecBaseFarad f s
  | .decBaseDegF f => Sys2Proof.Machine.execDecBaseDegF f s
  | .decBaseDegC f => Sys2Proof.Machine.execDecBaseDegC f s
  | .decBaseAmpere f => Sys2Proof.Machine.execDecBaseAmpere f s
  | .decBaseVolt f => Sys2Proof.Machine.execDecBaseVolt f s
  | .decBaseHertz f => Sys2Proof.Machine.execDecBaseHertz f s
  | .fmtUnit => Sys2Proof.Machine.execFmtUnit s
  | .fmtValue => Sys2Proof.Machine.execFmtValue s
  | .fmtReading => Sys2Proof.Machine.execFmtReading s
  | .decodeFrame len f => Sys2Proof.Machine.execDecodeFrame len f s
  | .pipe rst valid eos data => Sys2Proof.Machine.execPipe rst valid eos data s
  | .encodeFrame a => Sys2Proof.Machine.execEncodeFrame a s
  | .frameUntested f => Sys2Proof.Machine.execFrameUntested f s

end Sys2Proof.Machine
end

