-- ==== Sys2Proof/Machine/Step.lean ====
section
/-! DEFINITION. One step of the model (R15): the operation of the step's input is decoded and executed on a state whose
output strobes are 0; then an emitted frame is decoded (R207) and a presented DFRAME is answered (R213). -/

namespace Sys2Proof.Machine

/-- One step. -/
def step (s : State) : Host.Outcome State Fault Refusal :=
  match decode s.fetch with
  | .ok i => andThen (exec i (s.popInbox.startStep i.rst)) (finishStep s.dframe)
  | .error r => .refused (.undecodable r)

/-- The state in which the next step runs the operation of a table word of `nbits` bits (assumption log 8). -/
def State.withFetchWord (s : State) (nbits w : Nat) : State :=
  match fmtOfWidth nbits with
  | some fmt => s.presentWord fmt (BitVec.ofNat 88 w)
  | none => s

end Sys2Proof.Machine
end

