-- ==== Sys2Proof/Safety.lean ====
section
/-! DEFINITION. What claims are stated in: the invariant of reachable states (R37, R178), the selection table of R101
written out, the outputs of a run as a list of events (R86), and the stream function `hunt` of R136. -/

namespace Sys2Proof.Machine

/-- The invariant of reachable states: (a) of R37, and of (b) the window and the two marker bytes of the buffer (not the
payload bytes, which speak of earlier inputs); of R178 and R93 the ranges of digits, N, base code and unit length for the
stage results (not the exponent, assumption log 10). -/
abbrev Inv (s : State) : Prop :=
  (s.phase = .hunt → s.cnt = 0) ∧
  (s.phase = .payload → s.win1 = 0xA5 ∧ s.win0 = 0xA5 ∧ s.fbuf[0] = 0xA5 ∧ s.fbuf[1] = 0xA5) ∧
  ((digitAt s.stages.digits 3).toNat ≤ 9 ∧ (digitAt s.stages.digits 2).toNat ≤ 9 ∧
    (digitAt s.stages.digits 1).toNat ≤ 9 ∧ (digitAt s.stages.digits 0).toNat ≤ 9) ∧
  (∀ d ∈ s.stages.recog, d.toNat ≤ 9) ∧
  s.stages.mag.toNat ≤ 9999 ∧ s.stages.base.toNat ≤ 8 ∧ s.stages.unitLen.toNat ≤ 9

/-- The table of R101: the operation of a step from `rst`, phase, symbol (R82), `win0` and `cnt`. -/
def tableSelection (p : Ports) (s : State) : Instr :=
  if p.rst then .synReset
  else match s.phase with
    | .closed => .synNostep p.valid
    | .hunt =>
      match p.symbol (s.ready p.rst) with
      | .idle => .synIdle
      | .eos => .synClose
      | .byte b => if s.win0 = 0xA5 ∧ b = 0xA5 then .synLock else .synShift b
    | .payload =>
      match p.symbol (s.ready p.rst) with
      | .idle => .synIdle
      | .eos => .synClose
      | .byte b => if s.cnt = 7 then .synEmit b else .synFill b

/-- The eight operations of the Synchronizer and PIPE: the ones that write a register (R100, column "writes"). -/
def writesRegisters : Instr → Bool
  | .synReset | .synNostep _ | .synIdle | .synClose | .synLock | .synShift _ | .synEmit _ | .synFill _
  | .pipe _ _ _ _ => true
  | _ => false

/-- Two states agree on the five registers of R20. -/
def sameRegisters (s t : State) : Prop :=
  s.win1 = t.win1 ∧ s.win0 = t.win0 ∧ s.phase = t.phase ∧ s.cnt = t.cnt ∧ s.fbuf = t.fbuf

/-- One output of the pipeline (R86). -/
inductive Event where
  | frame (f : Frame)
  | reading (r : Reading)
  | error (e : Err)
deriving DecidableEq, Repr

/-- The pipeline's outputs of a step: the frame, then its reading or error (R207). -/
def Outputs.events (o : Outputs) : List Event :=
  o.frame.toList.map .frame ++ o.reading.toList.map .reading ++ o.error.toList.map .error

/-- The states of at most `n` steps, up to the first stop. -/
def run : Nat → State → List State
  | 0, _ => []
  | n + 1, s =>
    match step s with
    | .next t => t :: run n t
    | .fault _ => []
    | .refused _ => []

/-- The state with a symbol list as its only inputs, one symbol a step (R112). -/
def State.feed (s : State) (l : List Symbol) : State := { s with inbox := l.map (fun x => .ports x.ports none) }

/-- The output list of a symbol list: one step for each symbol, up to the first stop (R136, R302). -/
def outputEvents (s : State) (l : List Symbol) : List Event :=
  (run l.length (s.feed l)).flatMap (fun t => t.out.events)

/-- Not `IDLE`. -/
def Symbol.taken : Symbol → Bool
  | .idle => false
  | .byte _ | .eos => true

/-- Where the stream function of R136 is: hunting with the previous byte, or taking with the payload so far. -/
inductive HuntMode where
  | hunt (prev : Byte)
  | take (acc : List Byte)
deriving DecidableEq, Repr

/-- One output of the Synchronizer as a function of the stream (R136). -/
inductive HuntOutput where
  | frame (bytes : List Byte)
  | streamClosed
deriving DecidableEq, Repr

/-- The functions `hunt(prev, s)` and `take(acc, s)` of R136 as one function. R136 has no `IDLE` in its lists: an
`IDLE` is skipped here. -/
def huntOutputs : HuntMode → List Symbol → List HuntOutput
  | _, [] => []
  | _, .eos :: _ => [.streamClosed]
  | m, .idle :: t => huntOutputs m t
  | .hunt prev, .byte b :: t =>
    if prev = 0xA5 ∧ b = 0xA5 then huntOutputs (.take []) t else huntOutputs (.hunt b) t
  | .take acc, .byte b :: t =>
    if acc.length = 7 then .frame ([0xA5, 0xA5] ++ acc ++ [b]) :: huntOutputs (.hunt 0x00) t
    else huntOutputs (.take (acc ++ [b])) t

/-- A result as an event. -/
def resultEvent : Except Err Reading → Event
  | .ok r => .reading r
  | .error e => .error e

/-- The pipeline's events for one output of the Synchronizer: the frame and its result by DECODE, or StreamClosed
(R207). -/
def HuntOutput.events : HuntOutput → List Event
  | .frame l => [.frame (frameOfList l frameLen), resultEvent (decodeList l)]
  | .streamClosed => [.error .streamClosed]

end Sys2Proof.Machine
end

