-- ==== Sys2Proof/Certificates/Slice0/Obligations.lean ====
section
/-! DEFINITION. The statements for the provers. Each docstring names the rule of the spec it formalises. -/

open Sys2Proof Sys2Proof.Machine

/-! ## Reset and the Synchronizer -/

/-- R35, R281: the state right after reset. (`fbuf` has no reset value in the spec; nothing is said of it here.) The
registers and `closed` are R35's. That the strobes and `s_ready` of R281's reset step stand in the field `out` of
State.reset is the model's choice (assumption log 3), and so is that the step from State.reset has nothing presented
(assumption log 8), in which `s_ready` is 1. -/
def Obligations.ResetStateHuntsWithClearedWindow : Prop :=
  State.reset.phase = .hunt ∧ State.reset.win1 = 0x00 ∧ State.reset.win0 = 0x00 ∧ State.reset.cnt = 0 ∧
  State.reset.isClosed = false ∧
  State.reset.out.frame = none ∧ State.reset.out.reading = none ∧ State.reset.out.error = none ∧
  State.reset.out.sReady = false ∧
  ∃ t, step State.reset = .next t ∧ t.out.sReady = true

/-- R128: SYN.RESET is selected by `rst = 1` in every state and whatever else is presented, the symbol is not taken,
and it completes with HUNT, counter and window cleared, no output, and everything else but `fbuf` as before; of `fbuf`
nothing is said. -/
def Obligations.ResetIsAlwaysSelectedAndClearsTheSequencer : Prop :=
  ∀ (s : State) (valid eos : Bool) (data : Byte),
    selected ⟨true, valid, eos, data⟩ s = .ok .synReset ∧ s.ready true = false ∧
    ∃ (fb : Vector Byte 10) (n : Nat),
      exec .synReset s =
        .next { s with phase := .hunt, cnt := 0, win1 := 0x00, win0 := 0x00, fbuf := fb, freeCtr := n }

/-- R122: SYN.SHIFT is selected by a byte that does not complete the marker, and takes it into the window; nothing else
changes. -/
def Obligations.ShiftTakesTheByteIntoTheWindow : Prop :=
  ∀ (s : State) (b : Byte), s.phase = .hunt → ¬(s.win0 = 0xA5 ∧ b = 0xA5) →
    selected (Symbol.byte b).ports s = .ok (.synShift b) ∧
    exec (.synShift b) s = .next { s with win1 := s.win0, win0 := b }

/-- R123: SYN.LOCK is selected by the byte that completes the marker, writes the marker to `fbuf[0]` and `fbuf[1]` and
goes to PAYLOAD with counter 0; no other byte of the buffer and nothing else changes. -/
def Obligations.LockStoresTheMarkerAndEntersPayload : Prop :=
  ∀ s : State, s.phase = .hunt → s.win0 = 0xA5 →
    selected (Symbol.byte 0xA5).ports s = .ok .synLock ∧
    ∃ fb : Vector Byte 10,
      exec .synLock s = .next { s with win1 := 0xA5, win0 := 0xA5, phase := .payload, cnt := 0, fbuf := fb } ∧
      ∀ (i : Nat) (h : i < 10), fb[i] = if i < 2 then 0xA5 else s.fbuf[i]

/-- R124: SYN.FILL stores the byte at frame index `2 + cnt` and counts it; every other byte of the buffer and
everything else is unchanged. -/
def Obligations.FillStoresOnePayloadByte : Prop :=
  ∀ (s : State) (b : Byte), s.phase = .payload → s.cnt.toNat < 7 →
    selected (Symbol.byte b).ports s = .ok (.synFill b) ∧
    ∃ (fb : Vector Byte 10) (n : BitVec 3),
      exec (.synFill b) s = .next { s with fbuf := fb, cnt := n } ∧ n.toNat = s.cnt.toNat + 1 ∧
      ∀ (i : Nat) (h : i < 10), fb[i] = if i = 2 + s.cnt.toNat then b else s.fbuf[i]

/-- R125: SYN.EMIT stores the eighth payload byte at index 9, outputs the ten bytes in index order, and leaves HUNT with
the window and the counter cleared; nothing else changes. -/
def Obligations.EmitOutputsTheTenBytesAndClearsTheWindow : Prop :=
  ∀ (s : State) (b : Byte), s.phase = .payload → s.cnt = 7 →
    selected (Symbol.byte b).ports s = .ok (.synEmit b) ∧
    ∃ (fb : Vector Byte 10) (f : Frame),
      exec (.synEmit b) s =
        .next { s with fbuf := fb, phase := .hunt, cnt := 0, win1 := 0x00, win0 := 0x00,
                       out := { s.out with frame := some f } } ∧
      (∀ (i : Nat) (h : i < 10), fb[i] = if i = 9 then b else s.fbuf[i]) ∧
      (∀ (i : Nat) (h : i < 10), frameByte f i = fb[i])

/-- R126: with no symbol SYN.IDLE is selected in HUNT and PAYLOAD, and nothing changes. -/
def Obligations.IdleChangesNothing : Prop :=
  ∀ (s : State) (eos : Bool) (data : Byte), s.phase ≠ .closed →
    selected ⟨false, false, eos, data⟩ s = .ok .synIdle ∧ exec .synIdle s = .next s

/-- R127: SYN.CLOSE is selected by EOS in HUNT and PAYLOAD, goes to CLOSED and reports StreamClosed; window, counter and
buffer keep their values and no frame is output. The report's record is kind 3 with all other fields 0. -/
def Obligations.CloseReportsStreamClosedAndKeepsTheRest : Prop :=
  ∀ (s : State) (data : Byte), s.phase ≠ .closed →
    selected ⟨false, true, true, data⟩ s = .ok .synClose ∧
    exec .synClose s =
      .next { s with phase := .closed, out := { s.out with error := some .streamClosed, reading := none } } ∧
    errRecordOf (some .streamClosed) = ⟨3, 0, 0, 0⟩

/-- R129, R101, for a step in which nothing is presented: in CLOSED with `rst = 0` no state changes and nothing is output;
`closed` stays 1 and `s_ready` is 0. That this is a step of the model at all, beside R129's "must not give the
Synchronizer a step", is the model's reading (assumption log 11). -/
def Obligations.ClosedWithNothingPresentedChangesNothing : Prop :=
  ∀ (s : State) (eos : Bool) (data : Byte), s.phase = .closed →
    selected ⟨false, false, eos, data⟩ s = .ok (.synNostep false) ∧ s.ready false = false ∧
    exec (.synNostep false) s = .next s

/-- R109: a symbol presented in CLOSED is not taken (`s_ready = 0`) and is refused; the selector words with `phase = 0b11`
and `rst = 0` are no operation. -/
def Obligations.SymbolPresentedWhileClosedIsRefused : Prop :=
  (∀ (s : State) (eos : Bool) (data : Byte), s.phase = .closed →
    s.ready false = false ∧ selected ⟨false, true, eos, data⟩ s = .ok (.synNostep true) ∧
    exec (.synNostep true) s = .refused .symbolWhileClosed) ∧
  (∀ (cnt : BitVec 3) (valid eos : Bool) (data win0 : Byte),
    decode ⟨.select .sym, (symBits false 3 cnt valid eos data win0).setWidth 88⟩ = .error .noRow)

/-- R101: the selection is total and exclusive: for every state and every input signals exactly the table's line. -/
def Obligations.SelectionFollowsTheTable : Prop :=
  ∀ (p : Ports) (s : State), selected p s = .ok (tableSelection p s)

/-- The model's choice (assumption log 7, from R101): a Synchronizer operation asked for in a state in which its own
condition of R100 fails is refused by name, with no effect. -/
def Obligations.UnselectedSynchronizerOperationIsRefused : Prop :=
  ∀ (s : State) (b : Byte) (v : Bool),
    (s.phase = .closed → exec .synIdle s = .refused .notSelected ∧ exec .synClose s = .refused .notSelected) ∧
    (s.phase ≠ .closed → exec (.synNostep v) s = .refused .notSelected) ∧
    (¬(s.phase = .hunt ∧ s.win0 = 0xA5) → exec .synLock s = .refused .notSelected) ∧
    (¬(s.phase = .hunt ∧ ¬(s.win0 = 0xA5 ∧ b = 0xA5)) → exec (.synShift b) s = .refused .notSelected) ∧
    (¬(s.phase = .payload ∧ s.cnt.toNat < 7) → exec (.synFill b) s = .refused .notSelected) ∧
    (¬(s.phase = .payload ∧ s.cnt = 7) → exec (.synEmit b) s = .refused .notSelected)

/-! ## The Digit Recognizer -/

/-- R153, R159: the recogniser returns the digit of the ten patterns, and for every other pattern raises
InvalidDigitPattern with the caller's position and byte; called on its own with position 0 and the pattern as byte. That
the operation by itself reports on the standalone error output and leaves the stage result `recog` at none is the
model's choice (assumption log 12), and so is the stage result itself (assumption log 5). -/
def Obligations.RecognizerReturnsTheDigitOrRaises : Prop :=
  ∀ (s : State) (d : Byte) (pos : BitVec 2),
    let table : List (Pattern × BitVec 4) :=
      [(0x7D, 0), (0x05, 1), (0x5B, 2), (0x1F, 3), (0x27, 4), (0x3E, 5), (0x7E, 6), (0x15, 7), (0x7F, 8), (0x3F, 9)]
    let p : Pattern := d.extractLsb' 0 7
    (∀ row ∈ table, p = row.1 →
      recogniseAt pos d = .ok row.2 ∧
      exec (.digRecog d) s = .next { s with stages := { s.stages with recog := some row.2 } }) ∧
    ((∀ row ∈ table, p ≠ row.1) →
      recogniseAt pos d = .error (.invalidDigitPattern pos p d) ∧
      exec (.digRecog d) s =
        .next { s with stages := { s.stages with recog := none },
                       out := { s.out with aError := some (.invalidDigitPattern 0 p (p.setWidth 8)),
                                           aReading := none } })

/-- R152: each of the ten case rows returns its digit on its pattern; on another pattern the row does not apply and
nothing changes (the last clause is the model's choice, assumption log 10). -/
def Obligations.DigitCaseRowsReturnTheirDigits : Prop :=
  ∀ (s : State) (d : Byte),
    let p : Pattern := d.extractLsb' 0 7
    let result (q : Pattern) (n : BitVec 4) : Host.Outcome State Fault Refusal :=
      .next (if p = q then { s with stages := { s.stages with recog := some n } } else s)
    exec (.dig0 d) s = result 0x7D 0 ∧ exec (.dig1 d) s = result 0x05 1 ∧ exec (.dig2 d) s = result 0x5B 2 ∧
    exec (.dig3 d) s = result 0x1F 3 ∧ exec (.dig4 d) s = result 0x27 4 ∧ exec (.dig5 d) s = result 0x3E 5 ∧
    exec (.dig6 d) s = result 0x7E 6 ∧ exec (.dig7 d) s = result 0x15 7 ∧ exec (.dig8 d) s = result 0x7F 8 ∧
    exec (.dig9 d) s = result 0x3F 9

/-- R154: exactly 118 patterns are invalid; on each the row DIG.INVALID raises InvalidDigitPattern and gives no digit: the
report on the standalone error output and `recog` at none are the model's choice (assumption log 12). On a valid pattern
the row does not apply and nothing changes (the model's choice, assumption log 10). -/
def Obligations.InvalidPatternsAreExactly118AndRaise : Prop :=
  ((List.range 128).countP fun n => (recognise (BitVec.ofNat 7 n)).isNone) = 118 ∧
  ∀ (s : State) (d : Byte),
    exec (.digInvalid d) s =
      .next (if recognise (patternOf d) = none then
        { s with stages := { s.stages with recog := none },
                 out := { s.out with aError := some (.invalidDigitPattern 0 (d.extractLsb' 0 7)
                                       ((d.extractLsb' 0 7).setWidth 8)), aReading := none } }
      else s)

/-- R160: the ten values of the inverse table, and that it is an inverse. -/
def Obligations.RecognizerInvertsPat : Prop :=
  (List.finRange 10).map pat = [0x7D, 0x05, 0x5B, 0x1F, 0x27, 0x3E, 0x7E, 0x15, 0x7F, 0x3F] ∧
  ∀ (d : Fin 10) (p : Pattern), recognise p = some (BitVec.ofNat 4 d.val) ↔ p = pat d

/-! ## The numeric stages -/

/-- R171: DEC.VALIDATE passes exactly on length 10 and the marker, and else raises MalformedFrame; that it then sets
`valid` to false and reports on the standalone error output is the model's choice (assumption log 12). Its rows PASS and
FAIL are the two outcomes, each without effect where the other holds (the model's choice, assumption log 10). -/
def Obligations.ValidatePassesExactlyOnLengthTenAndMarker : Prop :=
  ∀ (s : State) (len : BitVec 4) (f : Frame),
    let passed := { s with stages := { s.stages with valid := true } }
    let failed := { s with stages := { s.stages with valid := false },
                           out := { s.out with aError := some .malformedFrame, aReading := none } }
    (len = 10 ∧ f.extractLsb' 0 8 = 0xA5 ∧ f.extractLsb' 8 8 = 0xA5 →
      exec (.decValidate len f) s = .next passed ∧ exec (.decValidatePass len f) s = .next passed ∧
      exec (.decValidateFail len f) s = .next s) ∧
    (¬(len = 10 ∧ f.extractLsb' 0 8 = 0xA5 ∧ f.extractLsb' 8 8 = 0xA5) →
      exec (.decValidate len f) s = .next failed ∧ exec (.decValidateFail len f) s = .next failed ∧
      exec (.decValidatePass len f) s = .next s)

/-- R172: DEC.ASSEMBLE forms the four digit bytes. That it does so on every frame and in every state, also where
DEC.VALIDATE has not passed, is the model's choice (assumption log 17), and so is the place of the result (assumption
log 5). -/
def Obligations.AssembleCombinesAdjacentNibbles : Prop :=
  ∀ (s : State) (f : Frame),
    let byte (i : Nat) : Byte := f.extractLsb' (8 * i) 8
    exec (.decAssemble f) s =
      .next { s with stages := { s.stages with digitBytes :=
        { d3 := (byte 2 &&& 0xF0) ||| (byte 3 &&& 0x0F), d2 := (byte 3 &&& 0xF0) ||| (byte 4 &&& 0x0F)
          d1 := (byte 4 &&& 0xF0) ||| (byte 5 &&& 0x0F), d0 := (byte 5 &&& 0xF0) ||| (byte 6 &&& 0x0F) } } }

/-- R173: DEC.SPLIT; and on an assembled frame the four markers are the four frame bits. That DEC.SPLIT by itself splits
one byte and leaves marker and pattern as stage results (assumption logs 14, 5), and that it does so in every state
(assumption log 17), is the model's choice. -/
def Obligations.SplitSeparatesMarkerAndPattern : Prop :=
  (∀ (s : State) (d : Byte),
    exec (.decSplit d) s =
      .next { s with stages := { s.stages with marker := d.getLsbD 7, pattern := (d &&& 0x7F).setWidth 7 } }) ∧
  ∀ f : Frame,
    negOf (assemble f) = f.getLsbD (8 * 2 + 7) ∧ (dpOf (assemble f)).getLsbD 2 = f.getLsbD (8 * 3 + 7) ∧
    (dpOf (assemble f)).getLsbD 1 = f.getLsbD (8 * 4 + 7) ∧ (dpOf (assemble f)).getLsbD 0 = f.getLsbD (8 * 5 + 7)

/-- R174: the four digits when all are recognised; else the report of the first failing position in the order 3, 2, 1, 0
with its pattern and digit byte, and no digit is produced. That the stage result `digits` then keeps its value and the
report goes to the standalone error output is the model's choice (assumption log 12), and so is that the patterns are
taken from the assembled digit bytes (assumption log 14) and that it runs in every state (assumption log 17). -/
def Obligations.DigitsReportTheFirstInvalidPosition : Prop :=
  ∀ s : State,
    let b := s.stages.digitBytes
    let report (pos : BitVec 2) (d : Byte) : Host.Outcome State Fault Refusal :=
      .next { s with out := { s.out with aError := some (.invalidDigitPattern pos (d.extractLsb' 0 7) d),
                                         aReading := none } }
    match recognise (patternOf b.d3), recognise (patternOf b.d2), recognise (patternOf b.d1),
        recognise (patternOf b.d0) with
    | some d3, some d2, some d1, some d0 =>
      exec .decDigits s = .next { s with stages := { s.stages with digits := d3 ++ d2 ++ d1 ++ d0 } }
    | none, _, _, _ => exec .decDigits s = report 3 b.d3
    | some _, none, _, _ => exec .decDigits s = report 2 b.d2
    | some _, some _, none, _ => exec .decDigits s = report 1 b.d1
    | some _, some _, some _, none => exec .decDigits s = report 0 b.d0

/-- R175: N is the weighted sum, at most 9999, for four digits each at most 9. That DEC.BCDACC runs in every state, on
digits that stand although DEC.DIGITS raised, is the model's choice (assumption log 17), and so is the place of digits
and N (assumption log 5). -/
def Obligations.AccumulatorIsTheWeightedSum : Prop :=
  ∀ (s : State) (d3 d2 d1 d0 : BitVec 4), d3.toNat ≤ 9 → d2.toNat ≤ 9 → d1.toNat ≤ 9 → d0.toNat ≤ 9 →
    s.stages.digits = d3 ++ d2 ++ d1 ++ d0 →
    ∃ n : BitVec 14,
      exec .decBcdacc s = .next { s with stages := { s.stages with mag := n } } ∧
      n.toNat = d3.toNat * 1000 + d2.toNat * 100 + d1.toNat * 10 + d0.toNat ∧ n.toNat ≤ 9999

/-- R176, R173: DEC.DPSCALE: the exponent of the exact form and the sequence of divisions of the floating-point form.
That the markers are taken from the assembled digit bytes is the model's choice (assumption log 14), and so is that it
runs on the stage results that stand in any state (assumption logs 5, 17). -/
def Obligations.ScaleDividesInTheStatedOrder : Prop :=
  ∀ (s : State),
    let dp0 := s.stages.digitBytes.d0.getLsbD 7
    let dp1 := s.stages.digitBytes.d1.getLsbD 7
    let dp2 := s.stages.digitBytes.d2.getLsbD 7
    let v0 := f64OfNat s.stages.mag.toNat
    let v1 := if dp0 then fdiv v0 10 else v0
    let v2 := if dp1 then fdiv v1 100 else v1
    let v3 := if dp2 then fdiv v2 1000 else v2
    ∃ e : BitVec 3,
      exec .decDpscale s = .next { s with stages := { s.stages with exp := e, scaled := v3 } } ∧
      e.toNat = 1 * dp0.toNat + 2 * dp1.toNat + 3 * dp2.toNat

/-- R176, its three lines one at a time: the case rows divide by 10, 100, 1000 and add 1, 2, 3 to the exponent when their
frame bit is set, and change nothing when it is clear. That a row works on the stage results that stand when it is
evaluated is the model's choice (assumption log 10). -/
def Obligations.ScaleCaseRowsDivideOnce : Prop :=
  ∀ (s : State) (f : Frame),
    let line (marker : Bool) (e : BitVec 3) (k : Nat) : Host.Outcome State Fault Refusal :=
      .next (if marker then
        { s with stages := { s.stages with exp := s.stages.exp + e, scaled := fdiv s.stages.scaled k } } else s)
    exec (.decDpscaleDp0 f) s = line (f.getLsbD (8 * 5 + 7)) 1 10 ∧
    exec (.decDpscaleDp1 f) s = line (f.getLsbD (8 * 4 + 7)) 2 100 ∧
    exec (.decDpscaleDp2 f) s = line (f.getLsbD (8 * 3 + 7)) 3 1000

/-- R177, R173: DEC.SIGN flips the sign bit exactly when Digit3's marker is set. That it takes the marker from the
assembled digit bytes (assumption log 14) and runs on the stage results that stand in any state (assumption logs 5, 17)
is the model's choice. Its case row flips it for `f[2][7]`, and changes nothing when the bit is clear (the row by itself
is the model's choice, assumption log 10). -/
def Obligations.SignFlipsTheSignBitWhenMarked : Prop :=
  ∀ (s : State) (f : Frame),
    let v := s.stages.scaled
    let flipped : F64 := v ^^^ 0x8000000000000000
    let neg := s.stages.digitBytes.d3.getLsbD 7
    exec .decSign s =
      .next { s with stages := { s.stages with neg := neg, signed := if neg then flipped else v } } ∧
    exec (.decSignNeg f) s =
      .next (if f.getLsbD (8 * 2 + 7) then { s with stages := { s.stages with neg := true, signed := flipped } } else s)

/-- R204, R173: FMT.VALUE is the conversion, the three divisions and the sign in sequence. That it takes the markers from
the assembled digit bytes (assumption log 14) and runs on the stage results that stand in any state (assumption logs 5,
17) is the model's choice. -/
def Obligations.FormattedValueIsScaledThenSigned : Prop :=
  ∀ (s : State),
    let b := s.stages.digitBytes
    let v0 := f64OfNat s.stages.mag.toNat
    let v1 := if b.d0.getLsbD 7 then fdiv v0 10 else v0
    let v2 := if b.d1.getLsbD 7 then fdiv v1 100 else v1
    let v3 := if b.d2.getLsbD 7 then fdiv v2 1000 else v2
    let v4 := if b.d3.getLsbD 7 then v3 ^^^ 0x8000000000000000 else v3
    exec .fmtValue s = .next { s with stages := { s.stages with value := v4 } }

/-! ## Floating point -/

/-- R181, first clause: `F64(N)` is exact, here for every natural below 2^53, and it is a finite word. -/
def Obligations.IntegerConversionIsExact : Prop :=
  ∀ n : Nat, n < 2 ^ 53 → f64Finite (f64OfNat n) = true ∧ f64Value (f64OfNat n) = (n : ℚ)

/-- R16, R181: each `fdiv` is a correctly rounded division: for every finite word and every positive integer the result is
finite, has the sign bit of the dividend, is nearest to the exact quotient among all finite words, and at a tie between
two numbers has an even last bit. That this holds of results below the normal range too, which the block never produces
(R181), is the model's choice (assumption log 9). And with at most one decimal-point marker `rd_value` is a binary64
number nearest to the exact value, among all finite words. -/
def Obligations.SingleMarkerValueIsNearest : Prop :=
  (∀ (a : F64) (k : Nat), f64Finite a = true → 0 < k →
    f64Finite (fdiv a k) = true ∧ (fdiv a k).msb = a.msb ∧
    ∀ w : F64, f64Finite w = true →
      |f64Value (fdiv a k) - f64Value a / k| ≤ |f64Value w - f64Value a / k| ∧
      (|f64Value (fdiv a k) - f64Value a / k| = |f64Value w - f64Value a / k| → f64Value w ≠ f64Value (fdiv a k) →
        (fdiv a k).getLsbD 0 = false)) ∧
  ∀ (mag : BitVec 14) (dp : BitVec 3) (neg : Bool), mag.toNat ≤ 9999 → dp ∈ [0, 1, 2, 4] →
    f64Finite (valueOf mag dp neg) = true ∧
    ∀ w : F64, f64Finite w = true →
      |f64Value (valueOf mag dp neg) - exactValue mag dp neg| ≤ |f64Value w - exactValue mag dp neg|

/-- R181: for every combination of markers the value is within 4 * 2^-53 of the exact value, relatively, and is finite
and not subnormal. -/
def Obligations.ValueErrorIsAtMostFourHalfUlps : Prop :=
  ∀ (mag : BitVec 14) (dp : BitVec 3) (neg : Bool), mag.toNat ≤ 9999 →
    f64Finite (valueOf mag dp neg) = true ∧
    (mag.toNat ≠ 0 → (valueOf mag dp neg).extractLsb' 52 11 ≠ 0) ∧
    |f64Value (valueOf mag dp neg) - exactValue mag dp neg| ≤ 4 / 2 ^ 53 * |exactValue mag dp neg|

/-- R182: with N = 0, whatever the decimal-point markers, the word is negative zero with the sign marker and positive zero
without it; the two words differ and stand for the same number, and the exact value is 0 in both cases. The frame of
the rule decodes to it. -/
def Obligations.SignedZeroIsNegativeZero : Prop :=
  (∀ dp : BitVec 3, valueOf 0 dp true = 0x8000000000000000 ∧ valueOf 0 dp false = 0) ∧
  f64Value 0x8000000000000000 = f64Value 0 ∧
  (∀ (dp : BitVec 3) (neg : Bool), exactValue 0 dp neg = 0) ∧
  ∃ r : Reading,
    decodeList [0xA5, 0xA5, 0xF0, 0x7D, 0x7D, 0x7D, 0x0D, 0x00, 0x00, 0x00] = .ok r ∧
    r.digits = 0x0000 ∧ r.neg = true ∧ r.value = 0x8000000000000000

/-! ## The field decoders and the formatter -/

/-- R200: DEC.FLAGS and its four single-bit cases. That DEC.FLAGS runs on every frame, also where DEC.VALIDATE has not
passed, is the model's choice (assumption log 17), and so is the place of the flags (assumption log 5). That a case adds
its flag to the flags that stand, and changes nothing when its bit is clear, is the model's choice (assumption log 10). -/
def Obligations.FlagsAreTheLowNibbleOfByteTwo : Prop :=
  ∀ (s : State) (f : Frame),
    let flag (set : Bool) (bit : BitVec 4) : Host.Outcome State Fault Refusal :=
      .next (if set then { s with stages := { s.stages with flags := s.stages.flags ||| bit } } else s)
    exec (.decFlags f) s = .next { s with stages := { s.stages with flags := f.extractLsb' 16 4 } } ∧
    exec (.decFlagsUsb f) s = flag (f.getLsbD 16) 0b0001 ∧ exec (.decFlagsAuto f) s = flag (f.getLsbD 17) 0b0010 ∧
    exec (.decFlagsDc f) s = flag (f.getLsbD 18) 0b0100 ∧ exec (.decFlagsAc f) s = flag (f.getLsbD 19) 0b1000

/-- R201: DEC.PREFIX: the mask of the five tested bits, and the string with one character per set bit in the order
n, u, m, k, M. That DEC.PREFIX runs on every frame, also where DEC.VALIDATE has not passed, is the model's choice
(assumption log 17), and so is the place of the mask (assumption log 5). Each single-bit case adds its character, and
changes nothing when its bit is clear (a case by itself is the model's choice, assumption log 10). -/
def Obligations.PrefixBitsAppendInOrder : Prop :=
  ∀ (s : State) (f : Frame),
    let n := f.getLsbD (8 * 6 + 7)
    let u := f.getLsbD (8 * 3 + 7)
    let m := f.getLsbD (8 * 7 + 7)
    let k := f.getLsbD (8 * 7 + 1)
    let M := f.getLsbD (8 * 7 + 5)
    let mask : BitVec 5 := BitVec.ofBool M ++ BitVec.ofBool k ++ BitVec.ofBool m ++ BitVec.ofBool u ++ BitVec.ofBool n
    let char (set : Bool) (c : Byte) : List Byte := if set then [c] else []
    let case (set : Bool) (bit : BitVec 5) : Host.Outcome State Fault Refusal :=
      .next (if set then { s with stages := { s.stages with pfx := s.stages.pfx ||| bit } } else s)
    exec (.decPrefix f) s = .next { s with stages := { s.stages with pfx := mask } } ∧
    prefixString mask = char n 0x6E ++ char u 0x75 ++ char m 0x6D ++ char k 0x6B ++ char M 0x4D ∧
    exec (.decPrefixNano f) s = case n 0b00001 ∧ exec (.decPrefixMicro f) s = case u 0b00010 ∧
    exec (.decPrefixMilli f) s = case m 0b00100 ∧ exec (.decPrefixKilo f) s = case k 0b01000 ∧
    exec (.decPrefixMega f) s = case M 0b10000

/-- R202: DEC.BASE gives the highest code whose bit is set, or 0; the tokens of the codes 0 to 8 in the character codes
of R92. That DEC.BASE runs on every frame, also where DEC.VALIDATE has not passed, is the model's choice (assumption log
17), and so is the place of the code (assumption log 5). -/
def Obligations.BaseIsTheLastMatchingBit : Prop :=
  ∀ (s : State) (f : Frame),
    let bits : List Bool :=
      [f.getLsbD (8 * 6 + 6), f.getLsbD (8 * 7 + 6), f.getLsbD (8 * 7 + 2), f.getLsbD (8 * 8 + 7),
       f.getLsbD (8 * 8 + 6), f.getLsbD (8 * 8 + 3), f.getLsbD (8 * 8 + 2), f.getLsbD (8 * 8 + 1)]
    ∃ c : BitVec 4,
      exec (.decBase f) s = .next { s with stages := { s.stages with base := c } } ∧
      (c = 0 ↔ ∀ x ∈ bits, x = false) ∧
      (∀ j : Nat, j < 8 → (c.toNat = j + 1 ↔ bits[j]? = some true ∧ ∀ i, j < i → i < 8 → bits[i]? = some false)) ∧
      (List.range 9).map (fun n => baseToken (BitVec.ofNat 4 n)) =
        [[], [0x4F, 0x68, 0x6D], [0x25], [0x46], [0x64, 0x65, 0x67, 0x46], [0x64, 0x65, 0x67, 0x43], [0x41], [0x56],
          [0x48, 0x7A]]

/-- R202, its eight lines one at a time: each case row replaces the code by its own when its bit is set, and changes
nothing when it is clear (a row by itself is the model's choice, assumption log 10). -/
def Obligations.BaseCaseRowsReplaceTheCode : Prop :=
  ∀ (s : State) (f : Frame),
    let line (set : Bool) (code : BitVec 4) : Host.Outcome State Fault Refusal :=
      .next (if set then { s with stages := { s.stages with base := code } } else s)
    exec (.decBaseOhm f) s = line (f.getLsbD (8 * 6 + 6)) 1 ∧ exec (.decBasePct f) s = line (f.getLsbD (8 * 7 + 6)) 2 ∧
    exec (.decBaseFarad f) s = line (f.getLsbD (8 * 7 + 2)) 3 ∧ exec (.decBaseDegF f) s = line (f.getLsbD (8 * 8 + 7)) 4 ∧
    exec (.decBaseDegC f) s = line (f.getLsbD (8 * 8 + 6)) 5 ∧ exec (.decBaseAmpere f) s = line (f.getLsbD (8 * 8 + 3)) 6 ∧
    exec (.decBaseVolt f) s = line (f.getLsbD (8 * 8 + 2)) 7 ∧ exec (.decBaseHertz f) s = line (f.getLsbD (8 * 8 + 1)) 8

/-- R203: FMT.UNIT: the length is that of prefix followed by base token, at most 9, character `j` is in bits 8j+7..8j,
and the bytes beyond the string are 0. That FMT.UNIT runs on the prefix and the base code that stand, in any state, is
the model's choice (assumption logs 5, 17). -/
def Obligations.UnitStringIsPrefixThenBase : Prop :=
  ∀ s : State,
    let u := prefixString s.stages.pfx ++ baseToken s.stages.base
    ∃ (n : BitVec 4) (chars : BitVec 72),
      exec .fmtUnit s = .next { s with stages := { s.stages with unitLen := n, unitChars := chars } } ∧
      n.toNat = u.length ∧ n.toNat ≤ 9 ∧
      ∀ j : Nat, j < 9 → chars.extractLsb' (8 * j) 8 = (u[j]?).getD 0

/-- R205, R173: FMT.READING outputs the record of the stages' results. That by itself it outputs a reading in every state,
also after DEC.VALIDATE or DEC.DIGITS raised (assumption log 17), takes the markers from the assembled digit bytes
(assumption log 14) and the rest from the stage results that stand (assumption log 5), and outputs on the standalone
Decoder's channel (assumption log 12), is the model's choice. -/
def Obligations.ReadingCollectsTheStageResults : Prop :=
  ∀ s : State,
    let b := s.stages.digitBytes
    exec .fmtReading s =
      .next { s with out := { s.out with
        aReading := some
          { digits := s.stages.digits, mag := s.stages.mag
            dp := BitVec.ofBool (b.d2.getLsbD 7) ++ BitVec.ofBool (b.d1.getLsbD 7) ++ BitVec.ofBool (b.d0.getLsbD 7)
            neg := b.d3.getLsbD 7, value := s.stages.value, flags := s.stages.flags, pfx := s.stages.pfx
            base := s.stages.base, unitLen := s.stages.unitLen, unitChars := s.stages.unitChars }
        aError := none } }

/-- R106: the row of untested bits changes nothing, whatever the bits. -/
def Obligations.UntestedRowChangesNothing : Prop :=
  ∀ (s : State) (f : Frame), exec (.frameUntested f) s = .next s

/-! ## DECODE, ENCODE and the pipeline -/

/-- R206, R241, R242, R248: DECODE at the standalone Decoder gives exactly one of: MalformedFrame when length or marker
is wrong; InvalidDigitPattern of the first failing position; a reading, which is the reading of this frame with the four
recognised digits (its other parts by StagesInSequenceEqualDecode). Nothing but its own outputs changes. -/
def Obligations.DecodeGivesOneReadingOrOneError : Prop :=
  ∀ (s : State) (len : BitVec 4) (f : Frame),
    let b := assemble f
    let shaped := len = 10 ∧ frameByte f 0 = 0xA5 ∧ frameByte f 1 = 0xA5
    let bad (d : Byte) : Prop := recognise (patternOf d) = none
    let fails (e : Err) : Prop :=
      exec (.decodeFrame len f) s = .next { s with out := { s.out with aError := some e, aReading := none } }
    (¬shaped → fails .malformedFrame) ∧
    (shaped → bad b.d3 → fails (.invalidDigitPattern 3 (patternOf b.d3) b.d3)) ∧
    (shaped → ¬bad b.d3 → bad b.d2 → fails (.invalidDigitPattern 2 (patternOf b.d2) b.d2)) ∧
    (shaped → ¬bad b.d3 → ¬bad b.d2 → bad b.d1 → fails (.invalidDigitPattern 1 (patternOf b.d1) b.d1)) ∧
    (shaped → ¬bad b.d3 → ¬bad b.d2 → ¬bad b.d1 → bad b.d0 → fails (.invalidDigitPattern 0 (patternOf b.d0) b.d0)) ∧
    (shaped → ¬bad b.d3 → ¬bad b.d2 → ¬bad b.d1 → ¬bad b.d0 →
      ∃ r : Reading,
        exec (.decodeFrame len f) s = .next { s with out := { s.out with aReading := some r, aError := none } } ∧
        decodeDframe len f = .ok r ∧
        recognise (patternOf b.d3) = some (digitAt r.digits 3) ∧ recognise (patternOf b.d2) = some (digitAt r.digits 2) ∧
        recognise (patternOf b.d1) = some (digitAt r.digits 1) ∧ recognise (patternOf b.d0) = some (digitAt r.digits 0))

/-- R102, R206, R240: DECODE is the composition of its stages, run one after another on a frame, each through `exec`.
Where DECODE gives a reading, all stages complete and output exactly that reading. Where it gives MalformedFrame,
DEC.VALIDATE reports it. Where it gives another error, DEC.VALIDATE passes and DEC.DIGITS reports that error. DEC.SPLIT
runs on each of the four digit bytes; that the later stages take their patterns and markers from the assembled digit
bytes and not from its result is the model's choice (assumption log 14), and so are the place of the results (assumption
log 5) and of the reports (assumption log 12). -/
def Obligations.StagesInSequenceEqualDecode : Prop :=
  ∀ (s : State) (len : BitVec 4) (f : Frame),
    let b := assemble f
    let stagesOf (l : List Instr) : Host.Outcome State Fault Refusal := l.foldl (fun o i => andThen o (exec i)) (.next s)
    let upToDigits : List Instr :=
      [.decValidate len f, .decAssemble f, .decSplit b.d3, .decSplit b.d2, .decSplit b.d1, .decSplit b.d0, .decDigits]
    let rest : List Instr :=
      [.decBcdacc, .decDpscale, .decSign, .decFlags f, .decPrefix f, .decBase f, .fmtUnit, .fmtValue, .fmtReading]
    (∀ r, decodeDframe len f = .ok r →
      ∃ t : State, stagesOf (upToDigits ++ rest) = .next t ∧ t.out.aReading = some r ∧ t.out.aError = none ∧
        t.stages.signed = r.value ∧ t.stages.valid = true ∧ sameRegisters t s) ∧
    (decodeDframe len f = .error .malformedFrame →
      ∃ t : State, stagesOf [.decValidate len f] = .next t ∧ t.out.aError = some .malformedFrame ∧
        t.out.aReading = none ∧ t.stages.valid = false ∧ sameRegisters t s) ∧
    (∀ e, decodeDframe len f = .error e → e ≠ .malformedFrame →
      ∃ t : State, stagesOf upToDigits = .next t ∧ t.out.aError = some e ∧ t.out.aReading = none ∧
        t.stages.valid = true ∧ sameRegisters t s)

/-- R95, R171, R206: the hardware form of DECODE's input agrees with the byte list it presents, for a list of any
length; a list whose length is not 10 is MalformedFrame. -/
def Obligations.HardwareFormAgreesWithByteLists : Prop :=
  ∀ l : List Byte,
    decodeDframe (lenOfList l) (frameOfList l 10) = decodeList l ∧
    (l.length ≠ 10 → decodeList l = .error .malformedFrame)

/-- R113, R114: ENCODE completes and builds the ten bytes of R113, untested bits and `f[9]` as 0; and decoding that frame
gives back its arguments: digits, N, markers, sign, flags, prefix mask with u = dp2, the highest base unit set, and the
value of FMT.VALUE. That the frame stands in the stage result `built` is the model's choice (assumption log 5). -/
def Obligations.DecodeInvertsEncode : Prop :=
  ∀ (s : State) (a : EncodeArgs),
    let bit (x : Bool) (k : Nat) : Byte := (BitVec.ofBool x).setWidth 8 <<< k
    let D3 : Byte := (pat a.d3).setWidth 8 ||| bit a.neg 7
    let D2 : Byte := (pat a.d2).setWidth 8 ||| bit a.dp2 7
    let D1 : Byte := (pat a.d1).setWidth 8 ||| bit a.dp1 7
    let D0 : Byte := (pat a.d0).setWidth 8 ||| bit a.dp0 7
    ∃ (f : Frame) (r : Reading),
      exec (.encodeFrame a) s = .next { s with stages := { s.stages with built := f } } ∧
      (List.range 10).map (frameByte f) =
        [0xA5, 0xA5,
          (D3 &&& 0xF0) ||| bit a.ac 3 ||| bit a.dc 2 ||| bit a.auto 1 ||| bit a.usb 0,
          (D2 &&& 0xF0) ||| (D3 &&& 0x0F), (D1 &&& 0xF0) ||| (D2 &&& 0x0F), (D0 &&& 0xF0) ||| (D1 &&& 0x0F),
          bit a.nano 7 ||| bit a.ohm 6 ||| (D0 &&& 0x0F),
          bit a.milli 7 ||| bit a.pct 6 ||| bit a.mega 5 ||| bit a.farad 2 ||| bit a.kilo 1,
          bit a.degF 7 ||| bit a.degC 6 ||| bit a.ampere 3 ||| bit a.volt 2 ||| bit a.hertz 1, 0x00] ∧
      decodeDframe 10 f = .ok r ∧
      r.digits = BitVec.ofNat 4 a.d3 ++ BitVec.ofNat 4 a.d2 ++ BitVec.ofNat 4 a.d1 ++ BitVec.ofNat 4 a.d0 ∧
      r.mag.toNat = a.d3.val * 1000 + a.d2.val * 100 + a.d1.val * 10 + a.d0.val ∧
      r.dp = BitVec.ofBool a.dp2 ++ BitVec.ofBool a.dp1 ++ BitVec.ofBool a.dp0 ∧ r.neg = a.neg ∧
      r.value = valueOf r.mag r.dp r.neg ∧
      r.flags = BitVec.ofBool a.ac ++ BitVec.ofBool a.dc ++ BitVec.ofBool a.auto ++ BitVec.ofBool a.usb ∧
      r.pfx = BitVec.ofBool a.mega ++ BitVec.ofBool a.kilo ++ BitVec.ofBool a.milli ++ BitVec.ofBool a.dp2 ++
        BitVec.ofBool a.nano ∧
      r.base = (if a.hertz then 8 else if a.volt then 7 else if a.ampere then 6 else if a.degC then 5
        else if a.degF then 4 else if a.farad then 3 else if a.pct then 2 else if a.ohm then 1 else 0)

/-- R207: PIPE runs the operation that R101 selects and decodes a frame it emits in the same step. It completes whenever
no symbol is presented while CLOSED; that it completes in CLOSED with nothing presented is the model's reading
(assumption log 11). -/
def Obligations.PipeRunsTheSelectedOperationThenDecodes : Prop :=
  ∀ (s : State) (rst valid eos : Bool) (data : Byte), (rst = false → s.phase = .closed → valid = false) →
    ∃ u t : State,
      exec (tableSelection ⟨rst, valid, eos, data⟩ s) (s.startStep rst) = .next u ∧
      exec (.pipe rst valid eos data) s = .next t ∧
      (u.out.frame = none → t = u) ∧
      (∀ f r, u.out.frame = some f → decodeDframe 10 f = .ok r →
        t = { u with out := { u.out with reading := some r, error := none } }) ∧
      (∀ f e, u.out.frame = some f → decodeDframe 10 f = .error e →
        t = { u with out := { u.out with error := some e, reading := none } })

/-- R100 (column "writes"), R170: the operations of Recognizer, Decoder, formatter and the two rows that are not
hardware complete in every state, and change no register, no input and no output of the pipeline. That a case row
completes on operands to which its case does not apply (assumption log 10), and that a stage completes by itself
although an earlier stage raised (assumption log 17), is the model's choice. -/
def Obligations.DecoderOperationsCompleteAndWriteNoRegister : Prop :=
  ∀ (i : Instr) (s : State), writesRegisters i = false →
    ∃ t : State, exec i s = .next t ∧ sameRegisters t s ∧ t.freeCtr = s.freeCtr ∧ t.inbox = s.inbox ∧
      t.out.frame = s.out.frame ∧ t.out.reading = s.out.reading ∧ t.out.error = s.out.error ∧
      t.out.sReady = s.out.sReady ∧ t.out.closed = s.out.closed

/-- A step runs the decoded instruction: whatever the step's input decodes to is executed on the state with its input
taken and its strobes at 0, and then an emitted frame and a presented DFRAME are decoded. -/
def Obligations.StepExecutesTheDecodedOperation : Prop :=
  ∀ (s : State) (i : Instr), decode s.fetch = .ok i →
    step s = andThen (exec i (s.popInbox.startStep i.rst)) (finishStep s.dframe)

/-- R94, R244: the codes and fields of an error record. -/
def Obligations.ErrorRecordsCarryTheSpecsCodes : Prop :=
  errRecordOf none = ⟨0, 0, 0, 0⟩ ∧
  errRecordOf (some .malformedFrame) = ⟨1, 0, 0, 0⟩ ∧
  (∀ (pos : BitVec 2) (p : Pattern) (d : Byte), errRecordOf (some (.invalidDigitPattern pos p d)) = ⟨2, pos, p, d⟩) ∧
  errRecordOf (some .streamClosed) = ⟨3, 0, 0, 0⟩ ∧
  ∀ e : Option Err, ((errRecordOf e).kind ≠ 0 ↔ e.isSome)

/-- R103: words written out from the selector layouts decode to their operations. That the width of a table word names
its format (assumption log 8), and that the bare FRAME word is read as its single-bit case DEC.BASE.V (assumption
log 4), is the model's choice. -/
def Obligations.SelectorWordsDecodeToTheirRows : Prop :=
  decodeTableWord 24 0x02A5A5 = some .synLock ∧ decodeTableWord 24 0x021B00 = some (.synShift 0x1B) ∧
  decodeTableWord 24 0x3E07A5 = some (.synEmit 0x07) ∧ decodeTableWord 24 0x2A55A5 = some (.synFill 0x55) ∧
  decodeTableWord 8 0xDB = some (.dig2 0xDB) ∧ decodeTableWord 8 0x5A = some (.digInvalid 0x5A) ∧
  decodeTableWord 80 0x00040000000000000000 = some (.decBaseVolt 0x00040000000000000000) ∧
  decodeTableWord 88 0xA0000000000000000A5A5 = some (.decValidatePass 10 0xA5A5)

/-! ## Whole-machine statements -/

/-- Decoding what the encoder writes gives the operation back, for every well-formed operation and all its operands. The
words of the SYM, DIGIT, DFRAME and FRAME rows are in the selector layouts of R103, and those of the Synchronizer's rows
meet the conditions of R101. The rest is the model's choice: the tag that names the row, the value 0 in the fields of a
SYM word that its row does not ask for, the word 0 of the VALUE rows, to which R103 gives no selector word, and the 36-bit
layout of ENCODE's arguments, a PSEUDO row without one (assumption log 4); that the word of DEC.DIGITS is ignored, written
as 0, and that PIPE's word carries the input signals alone (assumption log 14). -/
def Obligations.DecodeInvertsTheInstructionEncoder : Prop :=
  ∀ i : Instr, i.wf = true → decode (encode i) = .ok i

/-- R37 (a) and the part of (b) on window and marker bytes, and ranges of R178 and R93: the reset state satisfies the
invariant `Inv`. The stage results it speaks of are the model's own and 0 at reset (assumption log 5). -/
def Obligations.ResetSatisfiesTheInvariant : Prop := Inv State.reset

/-- R37 (a), and of (b) that in PAYLOAD the window and `fbuf[0]`, `fbuf[1]` hold the marker; of R178 and R93 the ranges of
digits, N, base code and unit length: every step keeps them. Not in `Inv`: that `fbuf[2..1+cnt]` holds the payload bytes
taken (it speaks of earlier inputs, see MachineOutputsEqualTheStreamFunction), and the range of the exponent `e`, which
rows of DEC.DPSCALE repeated by themselves leave (the model's choice, assumption log 10). The stage results are the
model's own (assumption log 5). -/
def Obligations.EveryStepKeepsTheInvariant : Prop :=
  ∀ s t : State, Inv s → step s = .next t → Inv t

/-- R136 with R207 and R69: from HUNT, on every symbol list, the outputs of the machine step by step are those of the
stream function `hunt` on the list without its IDLE symbols, each frame with its reading or error by DECODE. -/
def Obligations.MachineOutputsEqualTheStreamFunction : Prop :=
  ∀ (s : State) (l : List Symbol), s.phase = .hunt →
    outputEvents s l = (huntOutputs (.hunt s.win0) (l.filter Symbol.taken)).flatMap HuntOutput.events

/-- R69: IDLE symbols, however many and wherever placed, change no output. -/
def Obligations.IdleSymbolsChangeNoOutput : Prop :=
  ∀ (s : State) (l : List Symbol), outputEvents s l = outputEvents s (l.filter Symbol.taken)

/-- R37 (d), R208, U4: what the buffer, the older window byte and the model's own fields hold in HUNT never reaches an
output of the pipeline. -/
def Obligations.StaleStateNeverReachesAnOutput : Prop :=
  ∀ (s t : State) (l : List Symbol), s.phase = .hunt → t.phase = .hunt → s.win0 = t.win0 →
    outputEvents s l = outputEvents t l

/-- R304: in HUNT with `win0 != 0xA5`, the ten byte symbols `A5 A5 p0 ... p7`, with any number of IDLE symbols among
them, emit exactly that frame (with its result) in the step of the tenth byte, nothing before it, and leave HUNT with a
cleared window and counter. -/
def Obligations.TenBytesEmitExactlyTheirFrame : Prop :=
  ∀ (s : State) (l : List Symbol) (p : Vector Byte 8), s.phase = .hunt → s.win0 ≠ 0xA5 →
    (l ++ [Symbol.byte p[7]]).filter Symbol.taken =
      [.byte 0xA5, .byte 0xA5, .byte p[0], .byte p[1], .byte p[2], .byte p[3], .byte p[4], .byte p[5], .byte p[6],
        .byte p[7]] →
    let f : Frame := p[7] ++ p[6] ++ p[5] ++ p[4] ++ p[3] ++ p[2] ++ p[1] ++ p[0] ++ (0xA5#8) ++ (0xA5#8)
    outputEvents s l = [] ∧
    outputEvents s (l ++ [.byte p[7]]) = [.frame f, resultEvent (decodeDframe 10 f)] ∧
    ∃ t : State, (run (l.length + 1) (s.feed (l ++ [.byte p[7]]))).getLast? = some t ∧
      t.phase = .hunt ∧ t.win1 = 0x00 ∧ t.win0 = 0x00 ∧ t.cnt = 0

/-- R86, R135, R253: after a step on input signals, an emitted frame begins with the marker and comes with exactly one of
a reading and an error, and the error is never MalformedFrame; the step that takes EOS outputs StreamClosed and nothing
else; every other step without a frame outputs nothing. -/
def Obligations.EveryFrameHasExactlyOneResult : Prop :=
  ∀ (s t : State) (p : Ports) (d : Option (BitVec 4 × Frame)), Inv s → s.input = .ports p d → step s = .next t →
    (∀ f, t.out.frame = some f → frameByte f 0 = 0xA5 ∧ frameByte f 1 = 0xA5 ∧
      (t.out.reading.isSome ≠ t.out.error.isSome) ∧ t.out.error ≠ some .malformedFrame ∧
      t.out.error ≠ some .streamClosed) ∧
    (p.symbol (s.ready p.rst) = .eos →
      t.out.frame = none ∧ t.out.reading = none ∧ t.out.error = some .streamClosed) ∧
    (p.symbol (s.ready p.rst) ≠ .eos → t.out.frame = none → t.out.reading = none ∧ t.out.error = none)

/-- R82, R26, R299: the levels of a step on input signals: `s_ready` is 1 exactly when `rst = 0` and the phase before the
step is not CLOSED, and `closed` is the phase before the step. -/
def Obligations.LevelsShowThePhaseBeforeTheStep : Prop :=
  ∀ (s t : State) (p : Ports) (d : Option (BitVec 4 × Frame)), s.input = .ports p d → step s = .next t →
    (t.out.sReady = true ↔ p.rst = false ∧ s.phase ≠ .closed) ∧ (t.out.closed = true ↔ s.phase = .closed)

/-- R213, R252, R281: a DFRAME presented at the standalone Decoder is answered in every step that completes, also a reset
step and a step in CLOSED, by DECODE of that frame alone, and changes nothing else. That one standalone Decoder stands
beside the pipeline, so that a step takes at most one DFRAME, is the model's choice (assumption log 18): R258 allows any
number. -/
def Obligations.StandaloneDecodeAnswersInEveryStep : Prop :=
  ∀ (s u : State) (p : Ports) (rest : List Request) (len : BitVec 4) (f : Frame),
    step { s with inbox := .ports p none :: rest } = .next u →
    ∃ t : State, step { s with inbox := .ports p (some (len, f)) :: rest } = .next t ∧
      (∀ r, decodeDframe len f = .ok r → t = { u with out := { u.out with aReading := some r, aError := none } }) ∧
      (∀ e, decodeDframe len f = .error e → t = { u with out := { u.out with aError := some e, aReading := none } })

/-- R66, R106: frames that agree on all but the 16 untested bits decode alike. -/
def Obligations.UntestedBitsDoNotAffectDecode : Prop :=
  ∀ (len : BitVec 4) (f g : Frame),
    f &&& ~~~(0xFF311930000000000000 : Frame) = g &&& ~~~(0xFF311930000000000000 : Frame) →
    decodeDframe len f = decodeDframe len g

/-- R64, R289: in every reading the divide-by-1000 marker and the prefix "u" are the same bit. -/
def Obligations.MicroPrefixAndThousandthMarkerCoincide : Prop :=
  ∀ (len : BitVec 4) (f : Frame) (r : Reading), decodeDframe len f = .ok r →
    r.dp.getLsbD 2 = r.pfx.getLsbD 1 ∧ r.dp.getLsbD 2 = f.getLsbD (8 * 3 + 7)

/-- R178, R93: in every reading each digit is at most 9, N is their weighted sum and at most 9999, the base code is at
most 8 and the unit has at most 9 characters: the set prefix bits and the base token. -/
def Obligations.ReadingFieldsStayInRange : Prop :=
  ∀ (len : BitVec 4) (f : Frame) (r : Reading), decodeDframe len f = .ok r →
    (∀ n : Nat, n < 4 → (digitAt r.digits n).toNat ≤ 9) ∧
    r.mag.toNat = (digitAt r.digits 3).toNat * 1000 + (digitAt r.digits 2).toNat * 100 +
      (digitAt r.digits 1).toNat * 10 + (digitAt r.digits 0).toNat ∧
    r.mag.toNat ≤ 9999 ∧ r.base.toNat ≤ 8 ∧ r.unitLen.toNat ≤ 9 ∧
    r.unitLen.toNat = (List.range 5).countP (fun j => r.pfx.getLsbD j) + (baseToken r.base).length

/-- R209, R185: each part of a reading depends on its own frame bits. Two frames that differ only in the four flag bits, or
only in the prefix bits other than `f[3][7]`, or only in the eight base-unit bits, decode to the same error, or to
readings that differ only in the flags, or in prefix mask and unit string, or in base code and unit string. And of any
two frames that decode to readings: the flags agree if the flag bits do, the prefix if the five prefix bits do (with
`f[3][7]`), the base code if the base-unit bits do, and digits, N, markers, sign and value if the 32 digit bits do. -/
def Obligations.FlagBitsAffectOnlyTheFlags : Prop :=
  ∀ (len : BitVec 4) (f g : Frame),
    let onlyIn (bits : Frame) : Prop := f &&& ~~~bits = g &&& ~~~bits
    let agreeOn (bits : Frame) : Prop := f &&& bits = g &&& bits
    let follows (change : Reading → Reading) : Prop :=
      (∀ e, decodeDframe len f = .error e → decodeDframe len g = .error e) ∧
      (∀ r, decodeDframe len f = .ok r → decodeDframe len g = .ok (change r))
    (onlyIn 0x000000000000000F0000 → follows fun r => { r with flags := g.extractLsb' 16 4 }) ∧
    (onlyIn 0x0000A280000000000000 → follows fun r =>
      { r with pfx := prefixMask g, unitLen := unitLenOf (prefixMask g) r.base
               unitChars := unitCharsOf (prefixMask g) r.base }) ∧
    (onlyIn 0x00CE4440000000000000 → follows fun r =>
      { r with base := baseCode g, unitLen := unitLenOf r.pfx (baseCode g)
               unitChars := unitCharsOf r.pfx (baseCode g) }) ∧
    ∀ r q, decodeDframe len f = .ok r → decodeDframe len g = .ok q →
      (agreeOn 0x000000000000000F0000 → r.flags = q.flags) ∧
      (agreeOn 0x0000A280000080000000 → r.pfx = q.pfx) ∧
      (agreeOn 0x00CE4440000000000000 → r.base = q.base) ∧
      (agreeOn 0x0000000FFFFFFFF00000 →
        r.digits = q.digits ∧ r.mag = q.mag ∧ r.dp = q.dp ∧ r.neg = q.neg ∧ r.value = q.value)

/-- R26, R128: from CLOSED every step either stays CLOSED or is a reset, which leaves HUNT; and CLOSED is entered only by a
step that reports StreamClosed. -/
def Obligations.OnlyResetLeavesClosed : Prop :=
  ∀ s t : State, step s = .next t →
    (s.phase = .closed → t.phase = .closed ∨ ∃ i, decode s.fetch = .ok i ∧ i.rst = true ∧ t.phase = .hunt) ∧
    (s.phase ≠ .closed → t.phase = .closed → t.out.error = some .streamClosed)
end

