-- ==== Sys2Proof/Laws/State.lean ====
section
/-! SUPPORT. One lemma per field per state update, so that no later proof unfolds a record update; and what each output
channel's operations do to the outputs. -/

namespace Sys2Proof.Machine

variable (s : State)

@[simp] theorem State.setWindow_win1 (hi lo : Byte) : (s.setWindow hi lo).win1 = hi := rfl
@[simp] theorem State.setWindow_win0 (hi lo : Byte) : (s.setWindow hi lo).win0 = lo := rfl
@[simp] theorem State.setWindow_phase (hi lo : Byte) : (s.setWindow hi lo).phase = s.phase := rfl
@[simp] theorem State.setWindow_cnt (hi lo : Byte) : (s.setWindow hi lo).cnt = s.cnt := rfl
@[simp] theorem State.setWindow_fbuf (hi lo : Byte) : (s.setWindow hi lo).fbuf = s.fbuf := rfl
@[simp] theorem State.setWindow_freeCtr (hi lo : Byte) : (s.setWindow hi lo).freeCtr = s.freeCtr := rfl
@[simp] theorem State.setWindow_inbox (hi lo : Byte) : (s.setWindow hi lo).inbox = s.inbox := rfl
@[simp] theorem State.setWindow_out (hi lo : Byte) : (s.setWindow hi lo).out = s.out := rfl
@[simp] theorem State.setWindow_stages (hi lo : Byte) : (s.setWindow hi lo).stages = s.stages := rfl

@[simp] theorem State.setSeq_win1 (p : Phase) (n : BitVec 3) : (s.setSeq p n).win1 = s.win1 := rfl
@[simp] theorem State.setSeq_win0 (p : Phase) (n : BitVec 3) : (s.setSeq p n).win0 = s.win0 := rfl
@[simp] theorem State.setSeq_phase (p : Phase) (n : BitVec 3) : (s.setSeq p n).phase = p := rfl
@[simp] theorem State.setSeq_cnt (p : Phase) (n : BitVec 3) : (s.setSeq p n).cnt = n := rfl
@[simp] theorem State.setSeq_fbuf (p : Phase) (n : BitVec 3) : (s.setSeq p n).fbuf = s.fbuf := rfl
@[simp] theorem State.setSeq_freeCtr (p : Phase) (n : BitVec 3) : (s.setSeq p n).freeCtr = s.freeCtr := rfl
@[simp] theorem State.setSeq_inbox (p : Phase) (n : BitVec 3) : (s.setSeq p n).inbox = s.inbox := rfl
@[simp] theorem State.setSeq_out (p : Phase) (n : BitVec 3) : (s.setSeq p n).out = s.out := rfl
@[simp] theorem State.setSeq_stages (p : Phase) (n : BitVec 3) : (s.setSeq p n).stages = s.stages := rfl

@[simp] theorem State.storeByte_win1 (i : Nat) (v : Byte) : (s.storeByte i v).win1 = s.win1 := rfl
@[simp] theorem State.storeByte_win0 (i : Nat) (v : Byte) : (s.storeByte i v).win0 = s.win0 := rfl
@[simp] theorem State.storeByte_phase (i : Nat) (v : Byte) : (s.storeByte i v).phase = s.phase := rfl
@[simp] theorem State.storeByte_cnt (i : Nat) (v : Byte) : (s.storeByte i v).cnt = s.cnt := rfl
@[simp] theorem State.storeByte_fbuf (i : Nat) (v : Byte) : (s.storeByte i v).fbuf = writeFbuf s.fbuf i v := rfl
@[simp] theorem State.storeByte_freeCtr (i : Nat) (v : Byte) : (s.storeByte i v).freeCtr = s.freeCtr := rfl
@[simp] theorem State.storeByte_inbox (i : Nat) (v : Byte) : (s.storeByte i v).inbox = s.inbox := rfl
@[simp] theorem State.storeByte_out (i : Nat) (v : Byte) : (s.storeByte i v).out = s.out := rfl
@[simp] theorem State.storeByte_stages (i : Nat) (v : Byte) : (s.storeByte i v).stages = s.stages := rfl

@[simp] theorem State.forgetFbuf_win1 : (s.forgetFbuf).win1 = s.win1 := rfl
@[simp] theorem State.forgetFbuf_win0 : (s.forgetFbuf).win0 = s.win0 := rfl
@[simp] theorem State.forgetFbuf_phase : (s.forgetFbuf).phase = s.phase := rfl
@[simp] theorem State.forgetFbuf_cnt : (s.forgetFbuf).cnt = s.cnt := rfl
@[simp] theorem State.forgetFbuf_fbuf : (s.forgetFbuf).fbuf = Config.freeFbuf s.freeCtr := rfl
@[simp] theorem State.forgetFbuf_freeCtr : (s.forgetFbuf).freeCtr = s.freeCtr + 1 := rfl
@[simp] theorem State.forgetFbuf_inbox : (s.forgetFbuf).inbox = s.inbox := rfl
@[simp] theorem State.forgetFbuf_out : (s.forgetFbuf).out = s.out := rfl
@[simp] theorem State.forgetFbuf_stages : (s.forgetFbuf).stages = s.stages := rfl

@[simp] theorem State.setStages_win1 (st : Stages) : (s.setStages st).win1 = s.win1 := rfl
@[simp] theorem State.setStages_win0 (st : Stages) : (s.setStages st).win0 = s.win0 := rfl
@[simp] theorem State.setStages_phase (st : Stages) : (s.setStages st).phase = s.phase := rfl
@[simp] theorem State.setStages_cnt (st : Stages) : (s.setStages st).cnt = s.cnt := rfl
@[simp] theorem State.setStages_fbuf (st : Stages) : (s.setStages st).fbuf = s.fbuf := rfl
@[simp] theorem State.setStages_freeCtr (st : Stages) : (s.setStages st).freeCtr = s.freeCtr := rfl
@[simp] theorem State.setStages_inbox (st : Stages) : (s.setStages st).inbox = s.inbox := rfl
@[simp] theorem State.setStages_out (st : Stages) : (s.setStages st).out = s.out := rfl
@[simp] theorem State.setStages_stages (st : Stages) : (s.setStages st).stages = st := rfl

@[simp] theorem State.setOut_win1 (o : Outputs) : (s.setOut o).win1 = s.win1 := rfl
@[simp] theorem State.setOut_win0 (o : Outputs) : (s.setOut o).win0 = s.win0 := rfl
@[simp] theorem State.setOut_phase (o : Outputs) : (s.setOut o).phase = s.phase := rfl
@[simp] theorem State.setOut_cnt (o : Outputs) : (s.setOut o).cnt = s.cnt := rfl
@[simp] theorem State.setOut_fbuf (o : Outputs) : (s.setOut o).fbuf = s.fbuf := rfl
@[simp] theorem State.setOut_freeCtr (o : Outputs) : (s.setOut o).freeCtr = s.freeCtr := rfl
@[simp] theorem State.setOut_inbox (o : Outputs) : (s.setOut o).inbox = s.inbox := rfl
@[simp] theorem State.setOut_out (o : Outputs) : (s.setOut o).out = o := rfl
@[simp] theorem State.setOut_stages (o : Outputs) : (s.setOut o).stages = s.stages := rfl

@[simp] theorem State.popInbox_win1 : (s.popInbox).win1 = s.win1 := rfl
@[simp] theorem State.popInbox_win0 : (s.popInbox).win0 = s.win0 := rfl
@[simp] theorem State.popInbox_phase : (s.popInbox).phase = s.phase := rfl
@[simp] theorem State.popInbox_cnt : (s.popInbox).cnt = s.cnt := rfl
@[simp] theorem State.popInbox_fbuf : (s.popInbox).fbuf = s.fbuf := rfl
@[simp] theorem State.popInbox_freeCtr : (s.popInbox).freeCtr = s.freeCtr := rfl
@[simp] theorem State.popInbox_inbox : (s.popInbox).inbox = s.inbox.drop 1 := rfl
@[simp] theorem State.popInbox_out : (s.popInbox).out = s.out := rfl
@[simp] theorem State.popInbox_stages : (s.popInbox).stages = s.stages := rfl

@[simp] theorem State.emitFrame_win1 (f : Frame) : (s.emitFrame f).win1 = s.win1 := rfl
@[simp] theorem State.emitFrame_win0 (f : Frame) : (s.emitFrame f).win0 = s.win0 := rfl
@[simp] theorem State.emitFrame_phase (f : Frame) : (s.emitFrame f).phase = s.phase := rfl
@[simp] theorem State.emitFrame_cnt (f : Frame) : (s.emitFrame f).cnt = s.cnt := rfl
@[simp] theorem State.emitFrame_fbuf (f : Frame) : (s.emitFrame f).fbuf = s.fbuf := rfl
@[simp] theorem State.emitFrame_freeCtr (f : Frame) : (s.emitFrame f).freeCtr = s.freeCtr := rfl
@[simp] theorem State.emitFrame_inbox (f : Frame) : (s.emitFrame f).inbox = s.inbox := rfl
@[simp] theorem State.emitFrame_out (f : Frame) : (s.emitFrame f).out = { s.out with frame := some f } := rfl
@[simp] theorem State.emitFrame_stages (f : Frame) : (s.emitFrame f).stages = s.stages := rfl

@[simp] theorem State.present_win1 (r : Request) : (s.present r).win1 = s.win1 := rfl
@[simp] theorem State.present_win0 (r : Request) : (s.present r).win0 = s.win0 := rfl
@[simp] theorem State.present_phase (r : Request) : (s.present r).phase = s.phase := rfl
@[simp] theorem State.present_cnt (r : Request) : (s.present r).cnt = s.cnt := rfl
@[simp] theorem State.present_fbuf (r : Request) : (s.present r).fbuf = s.fbuf := rfl
@[simp] theorem State.present_freeCtr (r : Request) : (s.present r).freeCtr = s.freeCtr := rfl
@[simp] theorem State.present_inbox (r : Request) : (s.present r).inbox = r :: s.inbox.drop 1 := rfl
@[simp] theorem State.present_out (r : Request) : (s.present r).out = s.out := rfl
@[simp] theorem State.present_stages (r : Request) : (s.present r).stages = s.stages := rfl

@[simp] theorem State.startStep_win1 (rst : Bool) : (s.startStep rst).win1 = s.win1 := rfl
@[simp] theorem State.startStep_win0 (rst : Bool) : (s.startStep rst).win0 = s.win0 := rfl
@[simp] theorem State.startStep_phase (rst : Bool) : (s.startStep rst).phase = s.phase := rfl
@[simp] theorem State.startStep_cnt (rst : Bool) : (s.startStep rst).cnt = s.cnt := rfl
@[simp] theorem State.startStep_fbuf (rst : Bool) : (s.startStep rst).fbuf = s.fbuf := rfl
@[simp] theorem State.startStep_freeCtr (rst : Bool) : (s.startStep rst).freeCtr = s.freeCtr := rfl
@[simp] theorem State.startStep_inbox (rst : Bool) : (s.startStep rst).inbox = s.inbox := rfl
@[simp] theorem State.startStep_out (rst : Bool) : (s.startStep rst).out = ⟨none, none, none, none, none, s.ready rst, s.isClosed⟩ := rfl
@[simp] theorem State.startStep_stages (rst : Bool) : (s.startStep rst).stages = s.stages := rfl

@[simp] theorem State.emitReading_win1 (c : Channel) (r : Reading) : (s.emitReading c r).win1 = s.win1 := by
  cases c <;> rfl
@[simp] theorem State.emitReading_win0 (c : Channel) (r : Reading) : (s.emitReading c r).win0 = s.win0 := by
  cases c <;> rfl
@[simp] theorem State.emitReading_phase (c : Channel) (r : Reading) : (s.emitReading c r).phase = s.phase := by
  cases c <;> rfl
@[simp] theorem State.emitReading_cnt (c : Channel) (r : Reading) : (s.emitReading c r).cnt = s.cnt := by
  cases c <;> rfl
@[simp] theorem State.emitReading_fbuf (c : Channel) (r : Reading) : (s.emitReading c r).fbuf = s.fbuf := by
  cases c <;> rfl
@[simp] theorem State.emitReading_freeCtr (c : Channel) (r : Reading) : (s.emitReading c r).freeCtr = s.freeCtr := by
  cases c <;> rfl
@[simp] theorem State.emitReading_inbox (c : Channel) (r : Reading) : (s.emitReading c r).inbox = s.inbox := by
  cases c <;> rfl
@[simp] theorem State.emitReading_stages (c : Channel) (r : Reading) : (s.emitReading c r).stages = s.stages := by
  cases c <;> rfl

@[simp] theorem State.raise_win1 (c : Channel) (e : Err) : (s.raise c e).win1 = s.win1 := by
  cases c <;> rfl
@[simp] theorem State.raise_win0 (c : Channel) (e : Err) : (s.raise c e).win0 = s.win0 := by
  cases c <;> rfl
@[simp] theorem State.raise_phase (c : Channel) (e : Err) : (s.raise c e).phase = s.phase := by
  cases c <;> rfl
@[simp] theorem State.raise_cnt (c : Channel) (e : Err) : (s.raise c e).cnt = s.cnt := by
  cases c <;> rfl
@[simp] theorem State.raise_fbuf (c : Channel) (e : Err) : (s.raise c e).fbuf = s.fbuf := by
  cases c <;> rfl
@[simp] theorem State.raise_freeCtr (c : Channel) (e : Err) : (s.raise c e).freeCtr = s.freeCtr := by
  cases c <;> rfl
@[simp] theorem State.raise_inbox (c : Channel) (e : Err) : (s.raise c e).inbox = s.inbox := by
  cases c <;> rfl
@[simp] theorem State.raise_stages (c : Channel) (e : Err) : (s.raise c e).stages = s.stages := by
  cases c <;> rfl

@[simp] theorem State.emitResult_win1 (c : Channel) (r : Except Err Reading) : (s.emitResult c r).win1 = s.win1 := by
  cases c <;> cases r <;> rfl
@[simp] theorem State.emitResult_win0 (c : Channel) (r : Except Err Reading) : (s.emitResult c r).win0 = s.win0 := by
  cases c <;> cases r <;> rfl
@[simp] theorem State.emitResult_phase (c : Channel) (r : Except Err Reading) : (s.emitResult c r).phase = s.phase := by
  cases c <;> cases r <;> rfl
@[simp] theorem State.emitResult_cnt (c : Channel) (r : Except Err Reading) : (s.emitResult c r).cnt = s.cnt := by
  cases c <;> cases r <;> rfl
@[simp] theorem State.emitResult_fbuf (c : Channel) (r : Except Err Reading) : (s.emitResult c r).fbuf = s.fbuf := by
  cases c <;> cases r <;> rfl
@[simp] theorem State.emitResult_freeCtr (c : Channel) (r : Except Err Reading) : (s.emitResult c r).freeCtr = s.freeCtr := by
  cases c <;> cases r <;> rfl
@[simp] theorem State.emitResult_inbox (c : Channel) (r : Except Err Reading) : (s.emitResult c r).inbox = s.inbox := by
  cases c <;> cases r <;> rfl
@[simp] theorem State.emitResult_stages (c : Channel) (r : Except Err Reading) : (s.emitResult c r).stages = s.stages := by
  cases c <;> cases r <;> rfl

@[simp] theorem State.decodeEmitted_win1 : (s.decodeEmitted).win1 = s.win1 := by
  unfold State.decodeEmitted; split <;> simp
@[simp] theorem State.decodeEmitted_win0 : (s.decodeEmitted).win0 = s.win0 := by
  unfold State.decodeEmitted; split <;> simp
@[simp] theorem State.decodeEmitted_phase : (s.decodeEmitted).phase = s.phase := by
  unfold State.decodeEmitted; split <;> simp
@[simp] theorem State.decodeEmitted_cnt : (s.decodeEmitted).cnt = s.cnt := by
  unfold State.decodeEmitted; split <;> simp
@[simp] theorem State.decodeEmitted_fbuf : (s.decodeEmitted).fbuf = s.fbuf := by
  unfold State.decodeEmitted; split <;> simp
@[simp] theorem State.decodeEmitted_freeCtr : (s.decodeEmitted).freeCtr = s.freeCtr := by
  unfold State.decodeEmitted; split <;> simp
@[simp] theorem State.decodeEmitted_inbox : (s.decodeEmitted).inbox = s.inbox := by
  unfold State.decodeEmitted; split <;> simp
@[simp] theorem State.decodeEmitted_stages : (s.decodeEmitted).stages = s.stages := by
  unfold State.decodeEmitted; split <;> simp

@[simp] theorem State.decodeAlone_win1 (d : Option (BitVec 4 × Frame)) : (s.decodeAlone d).win1 = s.win1 := by
  unfold State.decodeAlone; split <;> simp
@[simp] theorem State.decodeAlone_win0 (d : Option (BitVec 4 × Frame)) : (s.decodeAlone d).win0 = s.win0 := by
  unfold State.decodeAlone; split <;> simp
@[simp] theorem State.decodeAlone_phase (d : Option (BitVec 4 × Frame)) : (s.decodeAlone d).phase = s.phase := by
  unfold State.decodeAlone; split <;> simp
@[simp] theorem State.decodeAlone_cnt (d : Option (BitVec 4 × Frame)) : (s.decodeAlone d).cnt = s.cnt := by
  unfold State.decodeAlone; split <;> simp
@[simp] theorem State.decodeAlone_fbuf (d : Option (BitVec 4 × Frame)) : (s.decodeAlone d).fbuf = s.fbuf := by
  unfold State.decodeAlone; split <;> simp
@[simp] theorem State.decodeAlone_freeCtr (d : Option (BitVec 4 × Frame)) : (s.decodeAlone d).freeCtr = s.freeCtr := by
  unfold State.decodeAlone; split <;> simp
@[simp] theorem State.decodeAlone_inbox (d : Option (BitVec 4 × Frame)) : (s.decodeAlone d).inbox = s.inbox := by
  unfold State.decodeAlone; split <;> simp
@[simp] theorem State.decodeAlone_stages (d : Option (BitVec 4 × Frame)) : (s.decodeAlone d).stages = s.stages := by
  unfold State.decodeAlone; split <;> simp

@[simp] theorem State.emitReading_pipeline_out (r : Reading) :
    (s.emitReading .pipeline r).out = { s.out with reading := some r, error := none } := rfl
@[simp] theorem State.emitReading_alone_out (r : Reading) :
    (s.emitReading .alone r).out = { s.out with aReading := some r, aError := none } := rfl
@[simp] theorem State.raise_pipeline_out (e : Err) :
    (s.raise .pipeline e).out = { s.out with error := some e, reading := none } := rfl
@[simp] theorem State.raise_alone_out (e : Err) :
    (s.raise .alone e).out = { s.out with aError := some e, aReading := none } := rfl
@[simp] theorem State.emitResult_ok (c : Channel) (r : Reading) : s.emitResult c (.ok r) = s.emitReading c r := rfl
@[simp] theorem State.emitResult_error (c : Channel) (e : Err) : s.emitResult c (.error e) = s.raise c e := rfl

@[simp] theorem andThen_next (k : State → Host.Outcome State Fault Refusal) : andThen (.next s) k = k s := rfl
@[simp] theorem andThen_refused (r : Refusal) (k : State → Host.Outcome State Fault Refusal) :
    andThen (.refused r) k = .refused r := rfl

/-- If a sequence of two answers a next state, the first part did. -/
theorem andThen_eq_next {o : Host.Outcome State Fault Refusal} {k : State → Host.Outcome State Fault Refusal} {t : State}
    (h : andThen o k = .next t) : ∃ u, o = .next u ∧ k u = .next t := by
  cases o with
  | next u => exact ⟨u, rfl, h⟩
  | fault r => exact nomatch r
  | refused r => cases h

end Sys2Proof.Machine
end

