-- ==== Sys2Proof/Laws/Ops.lean ====
section
/-! SUPPORT. What the named operations over the frame buffer, the bus form of a frame and the outputs do, said once. -/

namespace Sys2Proof.Machine

/-- A buffer byte after a write: the written value at the written index, the old byte elsewhere (R60). -/
theorem writeFbuf_getElem (b : Vector Byte 10) (i : Nat) (v : Byte) (j : Nat) (h : j < 10) :
    (writeFbuf b i v)[j] = if i = j then v else b[j] := by
  simp [writeFbuf, Vector.getElem_setIfInBounds]

/-- The fill index lies in the payload part of the buffer (R25: `pos` is 2 to 9). -/
theorem fillIndex_bounds (cnt : BitVec 3) : 2 ≤ fillIndex cnt ∧ fillIndex cnt ≤ 9 := by
  have := cnt.isLt
  simp only [fillIndex, windowLen]
  omega

/-- A byte of the bus form is the buffer's byte (R83, R87). -/
theorem frameByte_busOf (b : Vector Byte 10) (i : Nat) (h : i < 10) : frameByte (busOf b) i = b[i] := by
  have hi : i = 0 ∨ i = 1 ∨ i = 2 ∨ i = 3 ∨ i = 4 ∨ i = 5 ∨ i = 6 ∨ i = 7 ∨ i = 8 ∨ i = 9 := by omega
  rcases hi with rfl | rfl | rfl | rfl | rfl | rfl | rfl | rfl | rfl | rfl <;>
    · apply BitVec.eq_of_getLsbD_eq
      intro k hk
      simp only [frameByte, busOf, BitVec.getLsbD_extractLsb', BitVec.getLsbD_append]
      simp [hk]
      try grind

/-- A frame bit is bit `8i + k` of the bus form (R103). -/
theorem frameBit_eq (f : Frame) (i k : Nat) (hk : k < 8) : frameBit f i k = f.getLsbD (8 * i + k) := by
  simp [frameBit, frameByte, hk]

/-- `phase == CLOSED` (R26). -/
theorem State.isClosed_iff (s : State) : s.isClosed = true ↔ s.phase = .closed := by
  simp [State.isClosed]

/-- `s_ready` (R82). -/
theorem State.ready_iff (s : State) (rst : Bool) : s.ready rst = true ↔ rst = false ∧ s.phase ≠ .closed := by
  simp [State.ready, State.isClosed]

/-- A phase is the one of its code, and no phase has the code 0b11 (R24). -/
theorem Phase.ofCode_code (p : Phase) : Phase.ofCode p.code = some p := by cases p <;> rfl

theorem Phase.code_ne_three (p : Phase) : p.code ≠ 3 := by cases p <;> decide

/-- What decoding an emitted frame does: nothing without a frame, else the result on the pipeline's outputs (R207). -/
theorem State.decodeEmitted_of_none {s : State} (h : s.out.frame = none) : s.decodeEmitted = s := by
  simp [State.decodeEmitted, h]

theorem State.decodeEmitted_of_some {s : State} {f : Frame} (h : s.out.frame = some f) :
    s.decodeEmitted = s.emitResult .pipeline (decodeDframe 10 f) := by
  simp [State.decodeEmitted, h, frameLen, windowLen, payloadLen]

end Sys2Proof.Machine
end

