-- ==== Sys2Proof/Laws/Decode.lean ====
section
/-! SUPPORT. When each Synchronizer row applies to the selector word of a state (R103), and what the fields of that word
are. -/

namespace Sys2Proof.Machine

/-- A SYM row applies when the 24 bits of the word agree with its mask and match, bit by bit. -/
theorem applies_iff_bits (w m p : BitVec 24) :
    (w.setWidth 88 &&& m.setWidth 88 = p.setWidth 88) ↔
      ∀ i : Fin 24, (w.getLsbD i && m.getLsbD i) = p.getLsbD i := by
  have hinj : w.setWidth 88 &&& m.setWidth 88 = p.setWidth 88 ↔ w &&& m = p := by
    rw [← BitVec.setWidth_and]
    constructor
    · intro h
      have := congrArg (BitVec.setWidth 24) h
      simpa using this
    · rintro rfl; rfl
  rw [hinj]
  constructor
  · rintro rfl i; simp
  · intro h
    refine BitVec.eq_of_getLsbD_eq fun i hi => ?_
    simpa using h ⟨i, hi⟩

theorem bitvec_eq_iff {n : Nat} (a b : BitVec n) : a = b ↔ ∀ i : Fin n, a.getLsbD i = b.getLsbD i :=
  ⟨by rintro rfl i; rfl, fun h => BitVec.eq_of_getLsbD_eq fun i hi => h ⟨i, hi⟩⟩

variable (rst : Bool) (phase : BitVec 2) (cnt : BitVec 3) (valid eos : Bool) (data win0 : Byte)

/-- The bits of a SYM word (R103). -/
theorem symBits_getLsbD (i : Nat) :
    (symBits rst phase cnt valid eos data win0).getLsbD i =
      if i < 8 then win0.getLsbD i else if i < 16 then data.getLsbD (i - 8) else if i = 16 then eos
      else if i = 17 then valid else if i < 21 then cnt.getLsbD (i - 18) else if i < 23 then phase.getLsbD (i - 21)
      else if i = 23 then rst else false := by
  simp only [symBits, BitVec.getLsbD_append, BitVec.getLsbD_ofBool]
  by_cases h : i = 23
  · subst h; simp
  · grind

theorem applies_synReset :
    Op.synReset.applies ((symBits rst phase cnt valid eos data win0).setWidth 88) = rst := by
  rw [Bool.eq_iff_iff]
  have key := applies_iff_bits (symBits rst phase cnt valid eos data win0) (Op.synReset.mask.setWidth 24)
    (Op.synReset.pattern.setWidth 24)
  simp only [Op.applies, beq_iff_eq]
  refine key.trans ?_
  simp only [symBits_getLsbD, Op.mask, Op.pattern]
  simp [Fin.forall_fin_succ]
  try grind

theorem applies_synNostep :
    Op.synNostep.applies ((symBits rst phase cnt valid eos data win0).setWidth 88) =
      (!rst && phase == 2) := by
  rw [Bool.eq_iff_iff]
  have key := applies_iff_bits (symBits rst phase cnt valid eos data win0) (Op.synNostep.mask.setWidth 24)
    (Op.synNostep.pattern.setWidth 24)
  simp only [Op.applies, beq_iff_eq]
  refine key.trans ?_
  simp only [symBits_getLsbD, Op.mask, Op.pattern, Bool.and_eq_true, Bool.not_eq_true',
    beq_iff_eq, bitvec_eq_iff phase]
  simp [Fin.forall_fin_succ]
  try grind

theorem applies_synIdle :
    Op.synIdle.applies ((symBits rst phase cnt valid eos data win0).setWidth 88) =
      (!rst && !phase.getLsbD 1 && !valid) := by
  rw [Bool.eq_iff_iff]
  have key := applies_iff_bits (symBits rst phase cnt valid eos data win0) (Op.synIdle.mask.setWidth 24)
    (Op.synIdle.pattern.setWidth 24)
  simp only [Op.applies, beq_iff_eq]
  refine key.trans ?_
  simp only [symBits_getLsbD, Op.mask, Op.pattern, Bool.and_eq_true, Bool.not_eq_true']
  simp [Fin.forall_fin_succ]
  try grind

theorem applies_synClose :
    Op.synClose.applies ((symBits rst phase cnt valid eos data win0).setWidth 88) =
      (!rst && !phase.getLsbD 1 && valid && eos) := by
  rw [Bool.eq_iff_iff]
  have key := applies_iff_bits (symBits rst phase cnt valid eos data win0) (Op.synClose.mask.setWidth 24)
    (Op.synClose.pattern.setWidth 24)
  simp only [Op.applies, beq_iff_eq]
  refine key.trans ?_
  simp only [symBits_getLsbD, Op.mask, Op.pattern, Bool.and_eq_true, Bool.not_eq_true']
  simp [Fin.forall_fin_succ]
  try grind

theorem applies_synLock :
    Op.synLock.applies ((symBits rst phase cnt valid eos data win0).setWidth 88) =
      (!rst && phase == 0 && valid && !eos && data == 0xA5 && win0 == 0xA5) := by
  rw [Bool.eq_iff_iff]
  have key := applies_iff_bits (symBits rst phase cnt valid eos data win0) (Op.synLock.mask.setWidth 24)
    (Op.synLock.pattern.setWidth 24)
  simp only [Op.applies, beq_iff_eq]
  refine key.trans ?_
  simp only [symBits_getLsbD, Op.mask, Op.pattern, Bool.and_eq_true, Bool.not_eq_true',
    beq_iff_eq, bitvec_eq_iff data, bitvec_eq_iff win0, bitvec_eq_iff phase]
  simp [Fin.forall_fin_succ]
  try grind

theorem applies_synShift :
    Op.synShift.applies ((symBits rst phase cnt valid eos data win0).setWidth 88) =
      (!rst && phase == 0 && valid && !eos) := by
  rw [Bool.eq_iff_iff]
  have key := applies_iff_bits (symBits rst phase cnt valid eos data win0) (Op.synShift.mask.setWidth 24)
    (Op.synShift.pattern.setWidth 24)
  simp only [Op.applies, beq_iff_eq]
  refine key.trans ?_
  simp only [symBits_getLsbD, Op.mask, Op.pattern, Bool.and_eq_true, Bool.not_eq_true',
    beq_iff_eq, bitvec_eq_iff phase]
  simp [Fin.forall_fin_succ]
  try grind

theorem applies_synEmit :
    Op.synEmit.applies ((symBits rst phase cnt valid eos data win0).setWidth 88) =
      (!rst && phase == 1 && cnt == 7 && valid && !eos) := by
  rw [Bool.eq_iff_iff]
  have key := applies_iff_bits (symBits rst phase cnt valid eos data win0) (Op.synEmit.mask.setWidth 24)
    (Op.synEmit.pattern.setWidth 24)
  simp only [Op.applies, beq_iff_eq]
  refine key.trans ?_
  simp only [symBits_getLsbD, Op.mask, Op.pattern, Bool.and_eq_true, Bool.not_eq_true',
    beq_iff_eq, bitvec_eq_iff phase, bitvec_eq_iff cnt]
  simp [Fin.forall_fin_succ]
  try grind

theorem applies_synFill :
    Op.synFill.applies ((symBits rst phase cnt valid eos data win0).setWidth 88) =
      (!rst && phase == 1 && valid && !eos) := by
  rw [Bool.eq_iff_iff]
  have key := applies_iff_bits (symBits rst phase cnt valid eos data win0) (Op.synFill.mask.setWidth 24)
    (Op.synFill.pattern.setWidth 24)
  simp only [Op.applies, beq_iff_eq]
  refine key.trans ?_
  simp only [symBits_getLsbD, Op.mask, Op.pattern, Bool.and_eq_true, Bool.not_eq_true',
    beq_iff_eq, bitvec_eq_iff phase]
  simp [Fin.forall_fin_succ]
  try grind

/-- The data field of a SYM word is `s_data`. -/
theorem selData_symBits :
    selData ((symBits rst phase cnt valid eos data win0).setWidth 88) = data := by
  refine BitVec.eq_of_getLsbD_eq fun i hi => ?_
  simp only [selData, BitVec.getLsbD_extractLsb', BitVec.getLsbD_setWidth, symBits_getLsbD]
  grind

theorem selValid_symBits : selValid ((symBits rst phase cnt valid eos data win0).setWidth 88) = valid := by
  simp only [selValid, BitVec.getLsbD_setWidth, symBits_getLsbD]
  simp

theorem selEos_symBits : selEos ((symBits rst phase cnt valid eos data win0).setWidth 88) = eos := by
  simp only [selEos, BitVec.getLsbD_setWidth, symBits_getLsbD]
  simp

theorem selRst_symBits : selRst ((symBits rst phase cnt valid eos data win0).setWidth 88) = rst := by
  simp only [selRst, BitVec.getLsbD_setWidth, symBits_getLsbD]
  simp

/-- A SYM word fits its 24 bits. -/
theorem symBits_toNat_lt : (((symBits rst phase cnt valid eos data win0).setWidth 88)).toNat < 2 ^ 24 := by
  have := (symBits rst phase cnt valid eos data win0).isLt
  simp only [BitVec.toNat_setWidth]
  omega

/-- Decoding a word presented with a format alone: the selected row is built, or there is no row (R103). -/
theorem decode_select (fmt : Fmt) (w : Sel) (h : w.toNat < 2 ^ fmt.width) :
    decode ⟨.select fmt, w⟩ =
      match select fmt w with
      | some op => build op w
      | none => .error .noRow := by
  unfold decode Code.row
  simp only [h, if_true]
  cases select fmt w <;> rfl

/-- Decoding a word presented with a row's name, when the row holds of it (R103). -/
theorem decode_named (op : Op) (w : Sel) (h : w.toNat < 2 ^ op.fmt.width) (hw : op.holds w = true) :
    decode ⟨.named op, w⟩ = build op w := by
  unfold decode Code.row
  simp only [h, hw, if_true]

end Sys2Proof.Machine
end

