-- ==== Sys2Proof/Laws/Operands.lean ====
section
/-! SUPPORT. What the operand and numeric functions of the Decoder answer, said once: the digit table, digit positions,
markers, the four recognitions, the accumulator, and DECODE's outcomes. -/

namespace Sys2Proof.Machine

/-- The digit table written out (R152, R154). -/
theorem recognise_eq (p : Pattern) :
    recognise p =
      if p = 0x7D then some 0 else if p = 0x05 then some 1 else if p = 0x5B then some 2 else if p = 0x1F then some 3
      else if p = 0x27 then some 4 else if p = 0x3E then some 5 else if p = 0x7E then some 6 else if p = 0x15 then some 7
      else if p = 0x7F then some 8 else if p = 0x3F then some 9 else none := by
  revert p
  decide

/-- A recognised digit is at most 9 (R152). -/
theorem recognise_le_nine {p : Pattern} {d : BitVec 4} (h : recognise p = some d) : d.toNat ≤ 9 := by
  have : ∀ q : Pattern, ∀ e ∈ recognise q, e.toNat ≤ 9 := by decide
  exact this p d h

/-- The digits of `rd_digits` by position (R90, R174). -/
@[simp] theorem digitAt_packDigits_three (d3 d2 d1 d0 : BitVec 4) : digitAt (packDigits d3 d2 d1 d0) 3 = d3 := by
  refine BitVec.eq_of_getLsbD_eq fun i hi => ?_
  simp only [digitAt, packDigits, BitVec.getLsbD_extractLsb', BitVec.getLsbD_append]
  grind

@[simp] theorem digitAt_packDigits_two (d3 d2 d1 d0 : BitVec 4) : digitAt (packDigits d3 d2 d1 d0) 2 = d2 := by
  refine BitVec.eq_of_getLsbD_eq fun i hi => ?_
  simp only [digitAt, packDigits, BitVec.getLsbD_extractLsb', BitVec.getLsbD_append]
  grind

@[simp] theorem digitAt_packDigits_one (d3 d2 d1 d0 : BitVec 4) : digitAt (packDigits d3 d2 d1 d0) 1 = d1 := by
  refine BitVec.eq_of_getLsbD_eq fun i hi => ?_
  simp only [digitAt, packDigits, BitVec.getLsbD_extractLsb', BitVec.getLsbD_append]
  grind

@[simp] theorem digitAt_packDigits_zero (d3 d2 d1 d0 : BitVec 4) : digitAt (packDigits d3 d2 d1 d0) 0 = d0 := by
  refine BitVec.eq_of_getLsbD_eq fun i hi => ?_
  simp only [digitAt, packDigits, BitVec.getLsbD_extractLsb', BitVec.getLsbD_append]
  grind

/-- The decimal-point markers by bit (R90, R173). -/
theorem dpOf_zero (b : DigitBytes) : (dpOf b).getLsbD 0 = markerOf b.d0 := by
  simp only [dpOf, BitVec.getLsbD_append, BitVec.getLsbD_ofBool]
  simp

theorem dpOf_one (b : DigitBytes) : (dpOf b).getLsbD 1 = markerOf b.d1 := by
  simp only [dpOf, BitVec.getLsbD_append, BitVec.getLsbD_ofBool]
  simp

theorem dpOf_two (b : DigitBytes) : (dpOf b).getLsbD 2 = markerOf b.d2 := by
  simp only [dpOf, BitVec.getLsbD_append, BitVec.getLsbD_ofBool]
  simp

/-- Everything the four recognitions can answer (R174, R248). -/
theorem recogniseAll_cases (b : DigitBytes) :
    (∃ d3 d2 d1 d0, recognise (patternOf b.d3) = some d3 ∧ recognise (patternOf b.d2) = some d2 ∧
      recognise (patternOf b.d1) = some d1 ∧ recognise (patternOf b.d0) = some d0 ∧
      recogniseAll b = .ok (packDigits d3 d2 d1 d0)) ∨
    ∃ pos d, recognise (patternOf d) = none ∧ recogniseAll b = .error (.invalidDigitPattern pos (patternOf d) d) := by
  simp only [recogniseAll, recogniseAt]
  cases h3 : recognise (patternOf b.d3) with
  | none => exact .inr ⟨3, b.d3, h3, rfl⟩
  | some d3 =>
    cases h2 : recognise (patternOf b.d2) with
    | none => exact .inr ⟨2, b.d2, h2, rfl⟩
    | some d2 =>
      cases h1 : recognise (patternOf b.d1) with
      | none => exact .inr ⟨1, b.d1, h1, rfl⟩
      | some d1 =>
        cases h0 : recognise (patternOf b.d0) with
        | none => exact .inr ⟨0, b.d0, h0, rfl⟩
        | some d0 => exact .inl ⟨d3, d2, d1, d0, rfl, rfl, rfl, rfl, rfl⟩

/-- N of four decimal digits is their weighted sum: nothing wraps (R175, R178). -/
theorem accumulate_toNat (digits : BitVec 16) (h3 : (digitAt digits 3).toNat ≤ 9) (h2 : (digitAt digits 2).toNat ≤ 9)
    (h1 : (digitAt digits 1).toNat ≤ 9) (h0 : (digitAt digits 0).toNat ≤ 9) :
    (accumulate digits).toNat = (digitAt digits 3).toNat * 1000 + (digitAt digits 2).toNat * 100 +
      (digitAt digits 1).toNat * 10 + (digitAt digits 0).toNat := by
  rw [accumulate, BitVec.toNat_ofNat]
  exact Nat.mod_eq_of_lt (by omega)

/-- The exponent of the exact form does not wrap (R176). -/
theorem exponentOf_toNat (dp : BitVec 3) :
    (exponentOf dp).toNat = 1 * (dp.getLsbD 0).toNat + 2 * (dp.getLsbD 1).toNat + 3 * (dp.getLsbD 2).toNat := by
  revert dp
  decide

/-- A DFRAME is well shaped when its length is 10 and its first two bytes are the marker (R171). -/
theorem wellShaped_iff (len : BitVec 4) (f : Frame) :
    wellShaped len f = true ↔ len = 10 ∧ frameByte f 0 = 0xA5 ∧ frameByte f 1 = 0xA5 := by
  simp [wellShaped, frameLen, windowLen, payloadLen, sync0, sync1, and_assoc]

/-- A base code is at most 8 (R93, R202). -/
theorem baseCode_le_eight (f : Frame) : (baseCode f).toNat ≤ 8 := by
  simp only [baseCode, overrideBase]
  split_ifs <;> decide

/-- Length and characters of the unit string (R203). -/
theorem unitLenOf_toNat (mask : BitVec 5) (code : BitVec 4) :
    (unitLenOf mask code).toNat = (unitString mask code).length ∧ (unitString mask code).length ≤ 9 := by
  revert mask code
  decide

theorem unitCharsOf_byte (mask : BitVec 5) (code : BitVec 4) (j : Nat) (h : j < 9) :
    (unitCharsOf mask code).extractLsb' (8 * j) 8 = ((unitString mask code)[j]?).getD 0 := by
  have : ∀ (m : BitVec 5) (c : BitVec 4) (j : Nat), j < 9 →
      (unitCharsOf m c).extractLsb' (8 * j) 8 = ((unitString m c)[j]?).getD 0 := by decide
  exact this mask code j h

end Sys2Proof.Machine
end

