-- ==== Sys2Proof/Laws/PerInstr.lean ====
section
/-! SUPPORT. Per operation: the selector word that the encoder writes for a well-formed operation is one its row applies
to, and it fits the format's width (R103). -/

namespace Sys2Proof.Laws.EncodedRow

open Sys2Proof.Machine

/-- The encoder's word of a well-formed operation satisfies mask and match of the operation's row, and has no bit above
the width of the row's format. -/
def Statement (i : Instr) : Prop :=
  i.wf = true → i.op.applies i.bits = true ∧ i.bits.toNat < 2 ^ i.op.fmt.width

/-- A word widened to 88 bits keeps its bound. -/
theorem setWidth_toNat_lt {n : Nat} (x : BitVec n) : (x.setWidth 88).toNat < 2 ^ n := by
  simp only [BitVec.toNat_setWidth]
  exact Nat.lt_of_le_of_lt (Nat.mod_le _ _) x.isLt

/-- A DFRAME word has 84 bits. -/
theorem dframeBits_toNat_lt (len : BitVec 4) (f : Frame) : (dframeBits len f).toNat < 2 ^ 84 :=
  setWidth_toNat_lt (len ++ f)

/-- A row that tests nothing applies to every word. -/
theorem applies_of_mask_zero {op : Op} (hm : op.mask = 0) (hp : op.pattern = 0) (w : Sel) : op.applies w = true := by
  simp [Op.applies, hm, hp]

/-- A single-bit row applies to every frame word with the bit set. -/
theorem applies_of_bit {op : Op} {k : Nat} (hm : op.mask = 1#88 <<< k) (hp : op.pattern = 1#88 <<< k) (f : Frame)
    (h : f.getLsbD k = true) : op.applies (f.setWidth 88) = true := by
  have hk : k < 80 := BitVec.lt_of_getLsbD h
  simp only [Op.applies, hm, hp, beq_iff_eq]
  refine BitVec.eq_of_getLsbD_eq fun i hi => ?_
  by_cases hik : i = k
  · subst hik; simp [h]
  · simp only [BitVec.getLsbD_and, BitVec.getLsbD_shiftLeft, BitVec.getLsbD_one]
    grind

/-- A digit row applies to every byte with the row's pattern in its low seven bits. -/
theorem applies_of_pattern {op : Op} {p : Pattern} (hm : op.mask = 0x7F#88) (hp : op.pattern = p.setWidth 88) (d : Byte)
    (h : patternIs d p = true) : op.applies (d.setWidth 88) = true := by
  simp only [patternIs, beq_iff_eq] at h
  subst h
  simp only [Op.applies, hm, hp, beq_iff_eq]
  clear hm hp
  revert d
  decide

theorem synReset : Statement .synReset :=
  fun _ => ⟨applies_synReset true 0 0 false false 0 0, symBits_toNat_lt true 0 0 false false 0 0⟩

theorem synNostep (valid : Bool) : Statement (.synNostep valid) :=
  fun _ => ⟨applies_synNostep false 2 0 valid false 0 0, symBits_toNat_lt false 2 0 valid false 0 0⟩

theorem synIdle : Statement .synIdle :=
  fun _ => ⟨applies_synIdle false 0 0 false false 0 0, symBits_toNat_lt false 0 0 false false 0 0⟩

theorem synClose : Statement .synClose :=
  fun _ => ⟨applies_synClose false 0 0 true true 0 0, symBits_toNat_lt false 0 0 true true 0 0⟩

theorem synLock : Statement .synLock :=
  fun _ => ⟨applies_synLock false 0 0 true false 0xA5 0xA5, symBits_toNat_lt false 0 0 true false 0xA5 0xA5⟩

theorem synShift (b : Byte) : Statement (.synShift b) :=
  fun _ => ⟨applies_synShift false 0 0 true false b 0, symBits_toNat_lt false 0 0 true false b 0⟩

theorem synEmit (b : Byte) : Statement (.synEmit b) :=
  fun _ => ⟨applies_synEmit false 1 7 true false b 0, symBits_toNat_lt false 1 7 true false b 0⟩

theorem synFill (b : Byte) : Statement (.synFill b) :=
  fun _ => ⟨applies_synFill false 1 0 true false b 0, symBits_toNat_lt false 1 0 true false b 0⟩

theorem digRecog (d : Byte) : Statement (.digRecog d) :=
  fun _ => ⟨applies_of_mask_zero rfl rfl _, setWidth_toNat_lt d⟩

theorem dig0 (d : Byte) : Statement (.dig0 d) :=
  fun h => ⟨applies_of_pattern rfl rfl d h, setWidth_toNat_lt d⟩

theorem dig1 (d : Byte) : Statement (.dig1 d) :=
  fun h => ⟨applies_of_pattern rfl rfl d h, setWidth_toNat_lt d⟩

theorem dig2 (d : Byte) : Statement (.dig2 d) :=
  fun h => ⟨applies_of_pattern rfl rfl d h, setWidth_toNat_lt d⟩

theorem dig3 (d : Byte) : Statement (.dig3 d) :=
  fun h => ⟨applies_of_pattern rfl rfl d h, setWidth_toNat_lt d⟩

theorem dig4 (d : Byte) : Statement (.dig4 d) :=
  fun h => ⟨applies_of_pattern rfl rfl d h, setWidth_toNat_lt d⟩

theorem dig5 (d : Byte) : Statement (.dig5 d) :=
  fun h => ⟨applies_of_pattern rfl rfl d h, setWidth_toNat_lt d⟩

theorem dig6 (d : Byte) : Statement (.dig6 d) :=
  fun h => ⟨applies_of_pattern rfl rfl d h, setWidth_toNat_lt d⟩

theorem dig7 (d : Byte) : Statement (.dig7 d) :=
  fun h => ⟨applies_of_pattern rfl rfl d h, setWidth_toNat_lt d⟩

theorem dig8 (d : Byte) : Statement (.dig8 d) :=
  fun h => ⟨applies_of_pattern rfl rfl d h, setWidth_toNat_lt d⟩

theorem dig9 (d : Byte) : Statement (.dig9 d) :=
  fun h => ⟨applies_of_pattern rfl rfl d h, setWidth_toNat_lt d⟩

theorem digInvalid (d : Byte) : Statement (.digInvalid d) :=
  fun _ => ⟨applies_of_mask_zero rfl rfl _, setWidth_toNat_lt d⟩

theorem decValidate (len : BitVec 4) (f : Frame) : Statement (.decValidate len f) :=
  fun _ => ⟨applies_of_mask_zero rfl rfl _, dframeBits_toNat_lt len f⟩

theorem decValidatePass (len : BitVec 4) (f : Frame) : Statement (.decValidatePass len f) := by
  intro h
  refine ⟨?_, dframeBits_toNat_lt len f⟩
  simp only [Instr.wf, dframeGood, Bool.and_eq_true, beq_iff_eq] at h
  obtain ⟨⟨rfl, h0⟩, h1⟩ := h
  have hf : f = f.extractLsb' 16 64 ++ 0xA5A5#16 := by
    refine BitVec.eq_of_getLsbD_eq fun i hi => ?_
    have e0 := congrArg (fun x => BitVec.getLsbD x i) h0
    have e1 := congrArg (fun x => BitVec.getLsbD x (i - 8)) h1
    simp only [BitVec.getLsbD_extractLsb'] at e0 e1
    rw [BitVec.getLsbD_append, BitVec.getLsbD_extractLsb', show (0xA5A5#16) = 0xA5#8 ++ 0xA5#8 from rfl,
      BitVec.getLsbD_append]
    grind
  generalize f.extractLsb' 16 64 = r at hf
  subst hf
  rw [Op.applies, beq_iff_eq]
  change (10#4 ++ (r ++ 0xA5A5#16)).setWidth 88 &&& (0xF#4 ++ (0#64 ++ 0xFFFF#16)).setWidth 88 = _
  rw [← BitVec.setWidth_and, BitVec.and_append, BitVec.and_append, BitVec.and_zero]
  rfl

theorem decValidateFail (len : BitVec 4) (f : Frame) : Statement (.decValidateFail len f) :=
  fun _ => ⟨applies_of_mask_zero rfl rfl _, dframeBits_toNat_lt len f⟩

theorem decAssemble (f : Frame) : Statement (.decAssemble f) :=
  fun _ => ⟨applies_of_mask_zero rfl rfl _, setWidth_toNat_lt f⟩

theorem decSplit (d : Byte) : Statement (.decSplit d) :=
  fun _ => ⟨applies_of_mask_zero rfl rfl _, setWidth_toNat_lt d⟩

theorem decDigits : Statement .decDigits :=
  fun _ => ⟨applies_of_mask_zero rfl rfl _, show 0 < 2 ^ 8 by decide⟩

theorem decBcdacc : Statement .decBcdacc :=
  fun _ => ⟨applies_of_mask_zero rfl rfl _, show 0 < 2 ^ 0 by decide⟩

theorem decDpscale : Statement .decDpscale :=
  fun _ => ⟨applies_of_mask_zero rfl rfl _, show 0 < 2 ^ 0 by decide⟩

theorem decDpscaleDp0 (f : Frame) : Statement (.decDpscaleDp0 f) :=
  fun h => ⟨applies_of_bit (k := 47) rfl rfl f h, setWidth_toNat_lt f⟩

theorem decDpscaleDp1 (f : Frame) : Statement (.decDpscaleDp1 f) :=
  fun h => ⟨applies_of_bit (k := 39) rfl rfl f h, setWidth_toNat_lt f⟩

theorem decDpscaleDp2 (f : Frame) : Statement (.decDpscaleDp2 f) :=
  fun h => ⟨applies_of_bit (k := 31) rfl rfl f h, setWidth_toNat_lt f⟩

theorem decSign : Statement .decSign :=
  fun _ => ⟨applies_of_mask_zero rfl rfl _, show 0 < 2 ^ 0 by decide⟩

theorem decSignNeg (f : Frame) : Statement (.decSignNeg f) :=
  fun h => ⟨applies_of_bit (k := 23) rfl rfl f h, setWidth_toNat_lt f⟩

theorem decFlags (f : Frame) : Statement (.decFlags f) :=
  fun _ => ⟨applies_of_mask_zero rfl rfl _, setWidth_toNat_lt f⟩

theorem decFlagsUsb (f : Frame) : Statement (.decFlagsUsb f) :=
  fun h => ⟨applies_of_bit (k := 16) rfl rfl f h, setWidth_toNat_lt f⟩

theorem decFlagsAuto (f : Frame) : Statement (.decFlagsAuto f) :=
  fun h => ⟨applies_of_bit (k := 17) rfl rfl f h, setWidth_toNat_lt f⟩

theorem decFlagsDc (f : Frame) : Statement (.decFlagsDc f) :=
  fun h => ⟨applies_of_bit (k := 18) rfl rfl f h, setWidth_toNat_lt f⟩

theorem decFlagsAc (f : Frame) : Statement (.decFlagsAc f) :=
  fun h => ⟨applies_of_bit (k := 19) rfl rfl f h, setWidth_toNat_lt f⟩

theorem decPrefix (f : Frame) : Statement (.decPrefix f) :=
  fun _ => ⟨applies_of_mask_zero rfl rfl _, setWidth_toNat_lt f⟩

theorem decPrefixNano (f : Frame) : Statement (.decPrefixNano f) :=
  fun h => ⟨applies_of_bit (k := 55) rfl rfl f h, setWidth_toNat_lt f⟩

theorem decPrefixMicro (f : Frame) : Statement (.decPrefixMicro f) :=
  fun h => ⟨applies_of_bit (k := 31) rfl rfl f h, setWidth_toNat_lt f⟩

theorem decPrefixMilli (f : Frame) : Statement (.decPrefixMilli f) :=
  fun h => ⟨applies_of_bit (k := 63) rfl rfl f h, setWidth_toNat_lt f⟩

theorem decPrefixKilo (f : Frame) : Statement (.decPrefixKilo f) :=
  fun h => ⟨applies_of_bit (k := 57) rfl rfl f h, setWidth_toNat_lt f⟩

theorem decPrefixMega (f : Frame) : Statement (.decPrefixMega f) :=
  fun h => ⟨applies_of_bit (k := 61) rfl rfl f h, setWidth_toNat_lt f⟩

theorem decBase (f : Frame) : Statement (.decBase f) :=
  fun _ => ⟨applies_of_mask_zero rfl rfl _, setWidth_toNat_lt f⟩

theorem decBaseOhm (f : Frame) : Statement (.decBaseOhm f) :=
  fun h => ⟨applies_of_bit (k := 54) rfl rfl f h, setWidth_toNat_lt f⟩

theorem decBasePct (f : Frame) : Statement (.decBasePct f) :=
  fun h => ⟨applies_of_bit (k := 62) rfl rfl f h, setWidth_toNat_lt f⟩

theorem decBaseFarad (f : Frame) : Statement (.decBaseFarad f) :=
  fun h => ⟨applies_of_bit (k := 58) rfl rfl f h, setWidth_toNat_lt f⟩

theorem decBaseDegF (f : Frame) : Statement (.decBaseDegF f) :=
  fun h => ⟨applies_of_bit (k := 71) rfl rfl f h, setWidth_toNat_lt f⟩

theorem decBaseDegC (f : Frame) : Statement (.decBaseDegC f) :=
  fun h => ⟨applies_of_bit (k := 70) rfl rfl f h, setWidth_toNat_lt f⟩

theorem decBaseAmpere (f : Frame) : Statement (.decBaseAmpere f) :=
  fun h => ⟨applies_of_bit (k := 67) rfl rfl f h, setWidth_toNat_lt f⟩

theorem decBaseVolt (f : Frame) : Statement (.decBaseVolt f) :=
  fun h => ⟨applies_of_bit (k := 66) rfl rfl f h, setWidth_toNat_lt f⟩

theorem decBaseHertz (f : Frame) : Statement (.decBaseHertz f) :=
  fun h => ⟨applies_of_bit (k := 65) rfl rfl f h, setWidth_toNat_lt f⟩

theorem fmtUnit : Statement .fmtUnit :=
  fun _ => ⟨applies_of_mask_zero rfl rfl _, show 0 < 2 ^ 0 by decide⟩

theorem fmtValue : Statement .fmtValue :=
  fun _ => ⟨applies_of_mask_zero rfl rfl _, show 0 < 2 ^ 0 by decide⟩

theorem fmtReading : Statement .fmtReading :=
  fun _ => ⟨applies_of_mask_zero rfl rfl _, show 0 < 2 ^ 0 by decide⟩

theorem decodeFrame (len : BitVec 4) (f : Frame) : Statement (.decodeFrame len f) :=
  fun _ => ⟨applies_of_mask_zero rfl rfl _, dframeBits_toNat_lt len f⟩

theorem pipe (rst valid eos : Bool) (data : Byte) : Statement (.pipe rst valid eos data) :=
  fun _ => ⟨applies_of_mask_zero rfl rfl _, symBits_toNat_lt rst 0 0 valid eos data 0⟩

theorem encodeFrame (a : EncodeArgs) : Statement (.encodeFrame a) :=
  fun _ => ⟨applies_of_mask_zero rfl rfl _, setWidth_toNat_lt (encodeArgsBits a)⟩

theorem frameUntested (f : Frame) : Statement (.frameUntested f) :=
  fun _ => ⟨applies_of_mask_zero rfl rfl _, setWidth_toNat_lt f⟩

end Sys2Proof.Laws.EncodedRow
end

