-- ==== Sys2Proof/Tests/Slice0.lean ====
section
/-! SUPPORT. The model's own tests: ill-formed operations are refused, written-out words decode to their operations, the
spec's vectors (`spec/95_test_vectors.md`, named by their ids) hold for single steps and stages, and every statement
with hypotheses has a witness that meets them. Expected values come from the spec's tables. -/

namespace Sys2Proof.Tests

open Sys2Proof.Machine

/-! ## Helpers -/

/-- HUNT with a window. -/
def huntAt (hi lo : Byte) : State := { State.reset with win1 := hi, win0 := lo }

/-- PAYLOAD with a counter and a buffer. -/
def payloadAt (n : BitVec 3) (b : Vector Byte 10) : State :=
  { State.reset with phase := .payload, win1 := 0xA5, win0 := 0xA5, cnt := n, fbuf := b }

/-- CLOSED. -/
def closedState : State := { State.reset with phase := .closed }

/-- The state of a next outcome. -/
def nextOf : Host.Outcome State Fault Refusal → Option State
  | .next s => some s
  | .fault _ => none
  | .refused _ => none

/-- The state after one step on the given input signals. -/
def stepPorts (s : State) (p : Ports) : Option State := nextOf (step (s.present (.ports p none)))

/-- The state after one step that presents a symbol. -/
def stepOn (s : State) (x : Symbol) : Option State := stepPorts s x.ports

/-- The registers but the buffer. -/
def regs (o : Option State) : Option (Phase × Byte × Byte × BitVec 3) :=
  o.map fun s => (s.phase, s.win1, s.win0, s.cnt)

/-- The stage results after one operation executed by itself. -/
def stagesAfter (i : Instr) (st : Stages) : Option Stages :=
  (nextOf (exec i { State.reset with stages := st })).map (·.stages)

/-- The frame of a byte list in arrival order. -/
def frm (l : List Byte) : Frame := frameOfList l 10

/-- The frame of vector V20. -/
def v20 : Frame := frm [0xA5, 0xA5, 0x86, 0x55, 0x9B, 0x2F, 0x07, 0x80, 0x04, 0x00]

/-- The frame of vector V14, all payload bits set. -/
def v14 : Frame := frm [0xA5, 0xA5, 0xFF, 0xFF, 0xFF, 0xFF, 0xFF, 0xFF, 0xFF, 0xFF]

/-- The digit bytes of V20. -/
def v20Bytes : DigitBytes := ⟨0x85, 0x5B, 0x9F, 0x27⟩

/-- The digits, value, flags, prefix, base code and unit of a decoded list. -/
def summary (l : List Byte) : Option (BitVec 16 × F64 × BitVec 4 × BitVec 5 × BitVec 4 × BitVec 72) :=
  match decodeList l with
  | .ok r => some (r.digits, r.value, r.flags, r.pfx, r.base, r.unitChars)
  | .error _ => none

/-- The error of a decoded list. -/
def failure (l : List Byte) : Option ErrRecord :=
  match decodeList l with
  | .ok _ => none
  | .error e => some e.record

/-! ## WellFormed: a term that each check refuses, beside one that it takes -/

theorem test_wf_digits :
    [Instr.dig0 0x7C, .dig1 0x04, .dig2 0x5A, .dig3 0x1E, .dig4 0x26, .dig5 0x3D, .dig6 0x7D, .dig7 0x14, .dig8 0x7B,
      .dig9 0x3E, .digInvalid 0xFD].any Instr.wf = false ∧
    [Instr.dig0 0xFD, .dig1 0x85, .dig2 0xDB, .dig3 0x9F, .dig4 0xA7, .dig5 0xBE, .dig6 0xFE, .dig7 0x95, .dig8 0xFF,
      .dig9 0xBF, .digInvalid 0xA5].all Instr.wf = true := by decide

theorem test_wf_dframe :
    (Instr.decValidatePass 9 0xA5A5).wf = false ∧ (Instr.decValidatePass 10 0xA5A4).wf = false ∧
    (Instr.decValidatePass 10 0xA4A5).wf = false ∧ (Instr.decValidateFail 10 0xA5A5).wf = false ∧
    (Instr.decValidatePass 10 0xA5A5).wf = true ∧ (Instr.decValidateFail 11 0xA5A5).wf = true := by decide

/-- Each single-bit case is ill-formed on the frame with every bit set but its own, and well-formed on its bit alone. -/
theorem test_wf_single_bits :
    [(Instr.decDpscaleDp0, 47), (.decDpscaleDp1, 39), (.decDpscaleDp2, 31), (.decSignNeg, 23), (.decFlagsUsb, 16),
      (.decFlagsAuto, 17), (.decFlagsDc, 18), (.decFlagsAc, 19), (.decPrefixNano, 55), (.decPrefixMicro, 31),
      (.decPrefixMilli, 63), (.decPrefixKilo, 57), (.decPrefixMega, 61), (.decBaseOhm, 54), (.decBasePct, 62),
      (.decBaseFarad, 58), (.decBaseDegF, 71), (.decBaseDegC, 70), (.decBaseAmpere, 67), (.decBaseVolt, 66),
      (.decBaseHertz, 65)].all
      (fun (c : (Frame → Instr) × Nat) => !(c.1 (~~~(1#80 <<< c.2))).wf && (c.1 (1#80 <<< c.2)).wf) = true := by decide

/-! ## Decode: words written out from the selector layouts of R103 -/

/-- SYM: rst, phase, cnt, s_valid, s_eos, s_data, win0. -/
theorem test_decode_sym :
    decodeTableWord 24 0b1_01_101_1_0_01110111_10100101 = some .synReset ∧
    decodeTableWord 24 0b0_10_000_0_0_00000000_00000000 = some (.synNostep false) ∧
    decodeTableWord 24 0b0_10_011_1_0_00101111_10100101 = some (.synNostep true) ∧
    decodeTableWord 24 0b0_01_011_0_0_00000000_10100101 = some .synIdle ∧
    decodeTableWord 24 0b0_00_000_1_1_10100101_10100101 = some .synClose ∧
    decodeTableWord 24 0b0_00_000_1_0_10100101_10100101 = some .synLock ∧
    decodeTableWord 24 0b0_00_000_1_0_10100100_10100101 = some (.synShift 0xA4) ∧
    decodeTableWord 24 0b0_01_111_1_0_00001000_10100101 = some (.synEmit 0x08) ∧
    decodeTableWord 24 0b0_01_110_1_0_00010010_10100101 = some (.synFill 0x12) := by decide

/-- DIGIT: marker, pattern. -/
theorem test_decode_digit :
    decodeTableWord 8 0b1_1111101 = some (.dig0 0xFD) ∧ decodeTableWord 8 0b0_0000101 = some (.dig1 0x05) ∧
    decodeTableWord 8 0b0_1011011 = some (.dig2 0x5B) ∧ decodeTableWord 8 0b1_0011111 = some (.dig3 0x9F) ∧
    decodeTableWord 8 0b0_0100111 = some (.dig4 0x27) ∧ decodeTableWord 8 0b0_0111110 = some (.dig5 0x3E) ∧
    decodeTableWord 8 0b1_1111110 = some (.dig6 0xFE) ∧ decodeTableWord 8 0b0_0010101 = some (.dig7 0x15) ∧
    decodeTableWord 8 0b0_1111111 = some (.dig8 0x7F) ∧ decodeTableWord 8 0b0_0111111 = some (.dig9 0x3F) ∧
    decodeTableWord 8 0b1_0100101 = some (.digInvalid 0xA5) := by decide

/-- DIGIT rows that the word does not tell apart, by name. -/
theorem test_decode_digit_named :
    decode ⟨.named .digRecog, 0b1_0000101⟩ = .ok (.digRecog 0x85) ∧
    decode ⟨.named .decSplit, 0b1_0000101⟩ = .ok (.decSplit 0x85) ∧
    decode ⟨.named .decDigits, 0⟩ = .ok .decDigits := by decide

/-- DFRAME: `d_len` above `d_frame`. -/
theorem test_decode_dframe :
    decodeTableWord 88 0x1A_0000_0007_2F1B_5500_A5A5 = none ∧
    decodeTableWord 88 0xA_0000_0007_2F1B_5500_A5A5 = some (.decValidatePass 10 0x72F1B5500A5A5) ∧
    decodeTableWord 88 0x9_0000_0007_2F1B_5500_A5A5 = some (.decValidateFail 9 0x72F1B5500A5A5) ∧
    decode ⟨.named .decValidate, 0x9_0000_0007_2F1B_5500_A5A5⟩ = .ok (.decValidate 9 0x72F1B5500A5A5) ∧
    decode ⟨.named .decodeFrame, 0xB_0000_0007_2F1B_5500_A5A5⟩ = .ok (.decodeFrame 11 0x72F1B5500A5A5) := by decide

/-- FRAME: a word with one bit set is read as that bit's case, in the table's order; bit `8i + k` is bit `k` of
`f[i]`. -/
theorem test_decode_frame_bits :
    [(8 * 5 + 7, Instr.decDpscaleDp0), (8 * 4 + 7, .decDpscaleDp1), (8 * 3 + 7, .decDpscaleDp2),
      (8 * 2 + 7, .decSignNeg), (8 * 2 + 0, .decFlagsUsb), (8 * 2 + 1, .decFlagsAuto), (8 * 2 + 2, .decFlagsDc),
      (8 * 2 + 3, .decFlagsAc), (8 * 6 + 7, .decPrefixNano), (8 * 7 + 7, .decPrefixMilli),
      (8 * 7 + 1, .decPrefixKilo), (8 * 7 + 5, .decPrefixMega), (8 * 6 + 6, .decBaseOhm), (8 * 7 + 6, .decBasePct),
      (8 * 7 + 2, .decBaseFarad), (8 * 8 + 7, .decBaseDegF), (8 * 8 + 6, .decBaseDegC), (8 * 8 + 3, .decBaseAmpere),
      (8 * 8 + 2, .decBaseVolt), (8 * 8 + 1, .decBaseHertz), (8 * 9 + 0, .decAssemble)].all
      (fun (c : Nat × (Frame → Instr)) => decodeTableWord 80 (2 ^ c.1) == some (c.2 (1#80 <<< c.1))) = true := by decide

/-- FRAME, VALUE, SYM and PSEUDO rows by name. -/
theorem test_decode_named :
    decode ⟨.named .decPrefixMicro, 0x80000000⟩ = .ok (.decPrefixMicro 0x80000000) ∧
    decode ⟨.named .decAssemble, 0x72F1B5500A5A5⟩ = .ok (.decAssemble 0x72F1B5500A5A5) ∧
    decode ⟨.named .decFlags, 0xFA5A5⟩ = .ok (.decFlags 0xFA5A5) ∧
    decode ⟨.named .decPrefix, 0xA5A5⟩ = .ok (.decPrefix 0xA5A5) ∧
    decode ⟨.named .decBase, 0xA5A5⟩ = .ok (.decBase 0xA5A5) ∧
    decode ⟨.named .frameUntested, 0xFF311930000000000000⟩ = .ok (.frameUntested 0xFF311930000000000000) ∧
    decode ⟨.named .decBcdacc, 0⟩ = .ok .decBcdacc ∧ decode ⟨.named .decDpscale, 0⟩ = .ok .decDpscale ∧
    decode ⟨.named .decSign, 0⟩ = .ok .decSign ∧ decode ⟨.named .fmtUnit, 0⟩ = .ok .fmtUnit ∧
    decode ⟨.named .fmtValue, 0⟩ = .ok .fmtValue ∧ decode ⟨.named .fmtReading, 0⟩ = .ok .fmtReading ∧
    decode ⟨.named .pipe, 0b0_00_000_1_0_10100101_00000000⟩ = .ok (.pipe false true false 0xA5) := by decide

/-- ENCODE's arguments in the model's own layout (assumption log 4): E3, digits 5 6 7 8, dp0,
Auto, k, Ohm. -/
theorem test_decode_encode_args :
    decode ⟨.named .encodeFrame, 0x14215678⟩ =
      .ok (.encodeFrame ⟨5, 6, 7, 8, true, false, false, false, false, true, false, false, false, false, true, false,
        true, false, false, false, false, false, false, false⟩) := by decide

/-- What the decoder rejects, by name. -/
theorem test_decode_rejects :
    decode ⟨.select .sym, 0b0_11_000_1_0_00000000_00000000⟩ = .error .noRow ∧
    decode ⟨.select .sym, 0x1000000⟩ = .error .extraBits ∧ decode ⟨.select .value, 0⟩ = .error .noRow ∧
    decode ⟨.named .dig1, 0x7D⟩ = .error .notApplies ∧ decode ⟨.named .digInvalid, 0x7D⟩ = .error .notApplies ∧
    decode ⟨.named .decValidateFail, 0xA0000000000000000A5A5⟩ = .error .notApplies ∧
    decode ⟨.named .encodeFrame, 0xA000⟩ = .error .digitRange ∧ decodeTableWord 16 0 = none := by decide

/-- A table word placed by `withFetchWord` is the operation of the very next step. -/
theorem test_with_fetch_word :
    regs (nextOf (step (State.reset.withFetchWord 24 0x02A5A5))) = some (.payload, 0xA5, 0xA5, 0) ∧
    regs (nextOf (step (State.reset.withFetchWord 24 0x2A12A5))) = some (.payload, 0x00, 0xA5, 3) ∧
    ((nextOf (step (State.reset.withFetchWord 8 0x85))).map (·.stages.recog)) = some (some 1) := by decide

/-! ## The Synchronizer (vectors A1 to A21) -/

theorem test_shift_A5_A7 :
    regs (stepOn (huntAt 0xA5 0x00) (.byte 0xA5)) = some (.hunt, 0x00, 0xA5, 0) ∧
    regs (stepOn (huntAt 0x00 0xA5) (.byte 0xA4)) = some (.hunt, 0xA5, 0xA4, 0) := by decide

theorem test_lock_A3 :
    regs (stepOn (huntAt 0x00 0xA5) (.byte 0xA5)) = some (.payload, 0xA5, 0xA5, 0) ∧
    (stepOn (huntAt 0x00 0xA5) (.byte 0xA5)).map (fun s => (s.fbuf[0], s.fbuf[1])) = some (0xA5, 0xA5) := by decide

theorem test_fill_A8_A9 :
    (stepOn (payloadAt 0 (Vector.replicate 10 0)) (.byte 0xA5)).map (fun s => (s.cnt, s.fbuf[2], s.fbuf[3])) =
      some (1, 0xA5, 0) ∧
    (stepOn (payloadAt 6 (Vector.replicate 10 0)) (.byte 0x12)).map (fun s => (s.cnt, s.fbuf[8], s.fbuf[9])) =
      some (7, 0x12, 0) := by decide

theorem test_emit_A10 :
    (stepOn (payloadAt 7 #v[0xA5, 0xA5, 1, 2, 3, 4, 5, 6, 7, 0]) (.byte 0x08)).map (fun s => (s.out.frame, s.out.error)) =
      some (some (frm [0xA5, 0xA5, 1, 2, 3, 4, 5, 6, 7, 8]), some (.invalidDigitPattern 3 0x02 0x02)) := by decide

theorem test_emit_A11 :
    regs (stepOn (payloadAt 7 #v[0xA5, 0xA5, 0, 0x55, 0x1B, 0x2F, 7, 0, 0, 0]) (.byte 0xA5)) = some (.hunt, 0, 0, 0) ∧
    (stepOn (payloadAt 7 #v[0xA5, 0xA5, 0, 0x55, 0x1B, 0x2F, 7, 0, 0, 0]) (.byte 0xA5)).map
      (fun s => s.out.reading.map (·.value)) = some (some 0x4093480000000000) := by decide

theorem test_idle_A12_A13 :
    regs (stepOn (huntAt 0x13 0xA5) .idle) = some (.hunt, 0x13, 0xA5, 0) ∧
    regs (stepOn (payloadAt 3 (Vector.replicate 10 0)) .idle) = some (.payload, 0xA5, 0xA5, 3) := by decide

theorem test_close_A16_A21 :
    regs (stepOn (payloadAt 7 (Vector.replicate 10 0)) .eos) = some (.closed, 0xA5, 0xA5, 7) ∧
    (stepPorts (huntAt 0x00 0xA5) ⟨false, true, true, 0xA5⟩).map (fun s => (s.phase, s.out.error, s.out.frame)) =
      some (.closed, some .streamClosed, none) := by decide

theorem test_closed_A17 :
    (stepOn closedState .idle).map (fun s => (s.phase, s.out.sReady, s.out.closed)) = some (.closed, false, true) ∧
    stepOn closedState (.byte 0x2F) = none := by decide

theorem test_reset_A18_A19 :
    regs (stepPorts closedState ⟨true, false, false, 0⟩) = some (.hunt, 0, 0, 0) ∧
    (stepPorts (payloadAt 5 (Vector.replicate 10 0)) ⟨true, true, false, 0x77⟩).map
      (fun s => (s.phase, s.cnt, s.win0, s.out.error)) = some (.hunt, 0, 0, none) := by decide

/-- PIPE as an operation of its own gives the step's result. -/
theorem test_pipe_A10 :
    (nextOf (exec (.pipe false true false 0x08) (payloadAt 7 #v[0xA5, 0xA5, 1, 2, 3, 4, 5, 6, 7, 0]))).map
      (fun s => (s.phase, s.out.error)) = some (.hunt, some (.invalidDigitPattern 3 0x02 0x02)) := by decide

/-! ## The Recognizer (vectors D) -/

theorem test_recognise_valid :
    ([0xFD, 0x85, 0xDB, 0x9F, 0xA7, 0xBE, 0xFE, 0x95, 0xFF, 0xBF] : List Byte).map
      (fun d => (stagesAfter (.digRecog d) Stages.reset).map (·.recog)) =
      ([0, 1, 2, 3, 4, 5, 6, 7, 8, 9] : List (BitVec 4)).map (fun n => some (some n)) := by decide

theorem test_recognise_invalid :
    ([0x00, 0x01, 0x40, 0x7B, 0x77, 0x6F, 0x5F, 0x25, 0x7C, 0x5A, 0x1E, 0x26, 0x14, 0x0A, 0x09] : List Pattern).all
      (fun p => (recognise p).isNone) = true ∧
    (nextOf (exec (.digRecog 0xA5) State.reset)).map (·.out.aError) =
      some (some (.invalidDigitPattern 0 0x25 0x25)) := by decide

theorem test_digit_cases :
    ([(Instr.dig0, 0x7D, 0), (.dig1, 0x05, 1), (.dig2, 0x5B, 2), (.dig3, 0x1F, 3), (.dig4, 0x27, 4), (.dig5, 0x3E, 5),
      (.dig6, 0x7E, 6), (.dig7, 0x15, 7), (.dig8, 0x7F, 8), (.dig9, 0x3F, 9)] :
        List ((Byte → Instr) × Byte × BitVec 4)).all
      (fun c => (stagesAfter (c.1 c.2.1) Stages.reset).map (·.recog) == some (some c.2.2)) = true := by decide

theorem test_dig_invalid :
    (nextOf (exec (.digInvalid 0xA5) State.reset)).map (·.out.aError) =
      some (some (.invalidDigitPattern 0 0x25 0x25)) ∧
    nextOf (exec (.digInvalid 0x7D) State.reset) = some State.reset := by decide

/-! ## The stages (V20 step by step, V14) -/

theorem test_validate :
    (stagesAfter (.decValidate 10 v20) Stages.reset).map (·.valid) = some true ∧
    (nextOf (exec (.decValidate 9 v20) State.reset)).map (·.out.aError) = some (some .malformedFrame) := by decide

theorem test_validate_pass :
    (stagesAfter (.decValidatePass 10 v20) Stages.reset).map (·.valid) = some true := by decide

theorem test_validate_fail :
    (nextOf (exec (.decValidateFail 10 (frm [0xA5, 0x5A])) State.reset)).map (·.out.aError) =
      some (some .malformedFrame) := by decide

theorem test_assemble :
    (stagesAfter (.decAssemble v20) Stages.reset).map (·.digitBytes) = some v20Bytes := by decide

theorem test_split :
    (stagesAfter (.decSplit 0x9F) Stages.reset).map (fun t => (t.marker, t.pattern)) = some (true, 0x1F) := by decide

theorem test_digits :
    (stagesAfter .decDigits { Stages.reset with digitBytes := v20Bytes }).map (·.digits) = some 0x1234 ∧
    (nextOf (exec .decDigits { State.reset with stages := { Stages.reset with digitBytes := ⟨5, 0x6B, 0x1F, 0x20⟩ } })).map
      (·.out.aError) = some (some (.invalidDigitPattern 2 0x6B 0x6B)) := by decide

theorem test_bcdacc :
    (stagesAfter .decBcdacc { Stages.reset with digits := 0x9999 }).map (·.mag) = some 9999 ∧
    (stagesAfter .decBcdacc { Stages.reset with digits := 0x0471 }).map (·.mag) = some 471 := by decide

theorem test_dpscale :
    (stagesAfter .decDpscale { Stages.reset with mag := 1234, digitBytes := v20Bytes }).map
      (fun t => (t.exp, t.scaled)) = some (2, 0x4028AE147AE147AE) := by decide

/-- The case rows one after another give V7's word: 1234 / 10 / 100 / 1000. -/
theorem test_dpscale_cases :
    (nextOf (andThen (andThen (exec (.decDpscaleDp0 v14)
      { State.reset with stages := { Stages.reset with scaled := 0x4093480000000000 } })
      (exec (.decDpscaleDp1 v14))) (exec (.decDpscaleDp2 v14)))).map (fun s => (s.stages.exp, s.stages.scaled)) =
      some (6, 0x3F5437C5692B3CC5) := by decide

theorem test_sign :
    (stagesAfter .decSign { Stages.reset with scaled := 0x4028AE147AE147AE, digitBytes := v20Bytes }).map (·.signed) =
      some 0xC028AE147AE147AE ∧
    (stagesAfter (.decSignNeg v20) { Stages.reset with scaled := 0 }).map (·.signed) =
      some 0x8000000000000000 := by decide

theorem test_flags :
    (stagesAfter (.decFlags v20) Stages.reset).map (·.flags) = some 0b0110 ∧
    ([(Instr.decFlagsUsb, 1), (.decFlagsAuto, 2), (.decFlagsDc, 4), (.decFlagsAc, 8)] :
        List ((Frame → Instr) × BitVec 4)).all
      (fun c => (stagesAfter (c.1 v14) Stages.reset).map (·.flags) == some c.2) = true := by decide

theorem test_prefix :
    (stagesAfter (.decPrefix v20) Stages.reset).map (·.pfx) = some 0b00100 ∧
    ([(Instr.decPrefixNano, 1), (.decPrefixMicro, 2), (.decPrefixMilli, 4), (.decPrefixKilo, 8), (.decPrefixMega, 16)] :
        List ((Frame → Instr) × BitVec 5)).all
      (fun c => (stagesAfter (c.1 v14) Stages.reset).map (·.pfx) == some c.2) = true := by decide

theorem test_base :
    (stagesAfter (.decBase v20) Stages.reset).map (·.base) = some 7 ∧
    ([(Instr.decBaseOhm, 1), (.decBasePct, 2), (.decBaseFarad, 3), (.decBaseDegF, 4), (.decBaseDegC, 5),
      (.decBaseAmpere, 6), (.decBaseVolt, 7), (.decBaseHertz, 8)] : List ((Frame → Instr) × BitVec 4)).all
      (fun c => (stagesAfter (c.1 v14) Stages.reset).map (·.base) == some c.2) = true := by decide

/-- "mV" and the longest unit, "numkMdegF" (R203). -/
theorem test_unit :
    (stagesAfter .fmtUnit { Stages.reset with pfx := 0b00100, base := 7 }).map (fun t => (t.unitLen, t.unitChars)) =
      some (2, 0x566D) ∧
    (stagesAfter .fmtUnit { Stages.reset with pfx := 0b11111, base := 4 }).map (fun t => (t.unitLen, t.unitChars)) =
      some (9, 0x466765644D6B6D756E) := by decide

theorem test_value :
    (stagesAfter .fmtValue { Stages.reset with mag := 8888, digitBytes := ⟨0xFF, 0xFF, 0xFF, 0xFF⟩ }).map (·.value) =
      some 0xBF8233DF2A9D627C := by decide

theorem test_reading :
    (nextOf (exec .fmtReading { State.reset with stages := { Stages.reset with digitBytes := v20Bytes, mag := 1234 } })).map
      (fun s => s.out.aReading.map (fun r => (r.mag, r.dp, r.neg))) = some (some (1234, 0b010, true)) := by decide

theorem test_decode_operation :
    (nextOf (exec (.decodeFrame 10 v20) State.reset)).map (fun s => s.out.aReading.map (·.value)) =
      some (some 0xC028AE147AE147AE) ∧
    (nextOf (exec (.decodeFrame 11 v20) State.reset)).map (·.out.aError) = some (some .malformedFrame) := by decide

/-- E6: digits 9 9 9 9, USB, AC, Hz. -/
theorem test_encode_E6 :
    (stagesAfter (.encodeFrame ⟨9, 9, 9, 9, false, false, false, false, true, false, false, true, false, false, false,
      false, false, false, false, false, false, false, false, true⟩) Stages.reset).map (·.built) =
      some (frm [0xA5, 0xA5, 0x39, 0x3F, 0x3F, 0x3F, 0x0F, 0x00, 0x02, 0x00]) := by decide

/-- E2: digits 1 2 3 4, dp1, neg, DC, Auto, m, V. -/
theorem test_encode_E2 :
    buildFrame ⟨1, 2, 3, 4, false, true, false, true, false, true, true, false, false, true, false, false, false, false,
      false, false, false, false, true, false⟩ = v20 := by decide

theorem test_untested : nextOf (exec (.frameUntested untestedMask) State.reset) = some State.reset := by decide

/-! ## DECODE on the spec's frames -/

theorem test_V1 :
    summary [0xA5, 0xA5, 0x00, 0x55, 0x1B, 0x2F, 0x07, 0x00, 0x00, 0x00] =
      some (0x1234, 0x4093480000000000, 0, 0, 0, 0) := by decide

theorem test_V12 :
    summary [0xA5, 0xA5, 0xF0, 0x7D, 0x7D, 0x7D, 0x0D, 0x00, 0x00, 0x00] =
      some (0x0000, 0x8000000000000000, 0, 0, 0, 0) := by decide

theorem test_V13 :
    summary [0xA5, 0xA5, 0x30, 0x3F, 0x3F, 0x3F, 0x0F, 0x00, 0x00, 0x00] =
      some (0x9999, 0x40C3878000000000, 0, 0, 0, 0) := by decide

theorem test_V14 :
    summary [0xA5, 0xA5, 0xFF, 0xFF, 0xFF, 0xFF, 0xFF, 0xFF, 0xFF, 0xFF] =
      some (0x8888, 0xBF8233DF2A9D627C, 0b1111, 0b11111, 8, 0x7A484D6B6D756E) := by decide

theorem test_V19 :
    summary [0xA5, 0xA5, 0x00, 0x55, 0x1B, 0x2F, 0x37, 0x19, 0x31, 0xFF] =
      some (0x1234, 0x4093480000000000, 0, 0, 0, 0) := by decide

theorem test_V20 :
    summary [0xA5, 0xA5, 0x86, 0x55, 0x9B, 0x2F, 0x07, 0x80, 0x04, 0x00] =
      some (0x1234, 0xC028AE147AE147AE, 0b0110, 0b00100, 7, 0x566D) := by decide

theorem test_V21 :
    summary [0xA5, 0xA5, 0x32, 0x7E, 0x1E, 0xF5, 0x4F, 0x02, 0x00, 0x00] =
      some (0x5678, 0x4081BE6666666666, 0b0010, 0b01000, 1, 0x6D684F6B) := by decide

theorem test_V25 :
    summary [0xA5, 0xA5, 0x76, 0xAD, 0x17, 0x05, 0x05, 0x00, 0x08, 0x00] =
      some (0x0471, 0x3FDE24DD2F1A9FBE, 0b0110, 0b00010, 6, 0x4175) := by decide

theorem test_V33 :
    summary [0xA5, 0xA5, 0x00, 0x55, 0x1B, 0x2F, 0x07, 0x04, 0x80, 0x00] =
      some (0x1234, 0x4093480000000000, 0, 0, 4, 0x46676564) := by decide

/-- The order of the divisions is visible: N = 7 with dp1 and dp0 is not the nearest word to 7/1000 (R184). -/
theorem test_division_order :
    scale 7 0b011 = 0x3F7CAC083126E978 ∧ scale 7 0b100 = 0x3F7CAC083126E979 ∧ scale 7 0b111 = 0x3EDD5C31593E5FB6 ∧
    scale 1234 0b101 = 0x3FBF972474538EF4 := by decide

theorem test_failures_V15_V36 :
    failure [0xA5, 0xA5, 0, 0, 0, 0, 0, 0, 0, 0] = some ⟨2, 3, 0x00, 0x00⟩ ∧
    failure [0xA5, 0xA5, 0x00, 0x55, 0x0B, 0x21, 0x07, 0, 0, 0] = some ⟨2, 1, 0x01, 0x01⟩ ∧
    failure [0xA5, 0xA5, 0x00, 0x65, 0x1B, 0x2F, 0x00, 0, 0, 0] = some ⟨2, 2, 0x6B, 0x6B⟩ ∧
    failure [0xA5, 0xA5, 0x00, 0x55, 0x1B, 0xAF, 0x0A, 0, 0, 0] = some ⟨2, 0, 0x2A, 0xAA⟩ ∧
    failure [0xA5, 0xA5, 0x8F, 0x00, 0x1B, 0x2F, 0x07, 0xC4, 0xCE, 0] = some ⟨2, 3, 0x00, 0x80⟩ := by decide

theorem test_failures_V18 :
    failure [0xA5, 0xA5, 0x00, 0x55, 0x1B, 0x2F, 0x07, 0, 0] = some ⟨1, 0, 0, 0⟩ ∧
    failure [0xA5, 0xA5, 0x00, 0x55, 0x1B, 0x2F, 0x07, 0, 0, 0, 0] = some ⟨1, 0, 0, 0⟩ ∧
    failure [0xA4, 0xA5, 0x00, 0x55, 0x1B, 0x2F, 0x07, 0, 0, 0] = some ⟨1, 0, 0, 0⟩ ∧
    failure [0xA5, 0x5A, 0, 0, 0, 0, 0, 0, 0, 0] = some ⟨1, 0, 0, 0⟩ ∧ failure [] = some ⟨1, 0, 0, 0⟩ ∧
    failure [0xA5] = some ⟨1, 0, 0, 0⟩ := by decide

/-! ## Witnesses: a state and operands that meet the hypotheses of each statement, clause by clause -/

theorem witness_ResetIsAlwaysSelectedAndClearsTheSequencer :
    selected ⟨true, true, true, 0x77⟩ closedState = .ok .synReset := by decide

theorem witness_ShiftTakesTheByteIntoTheWindow :
    (State.reset.phase = .hunt ∧ ¬(State.reset.win0 = 0xA5 ∧ (0xA5 : Byte) = 0xA5)) ∧
    ((huntAt 0 0xA5).phase = .hunt ∧ ¬((huntAt 0 0xA5).win0 = 0xA5 ∧ (0xA4 : Byte) = 0xA5)) := by decide

theorem witness_LockStoresTheMarkerAndEntersPayload :
    (huntAt 0 0xA5).phase = .hunt ∧ (huntAt 0 0xA5).win0 = 0xA5 := by decide

theorem witness_FillStoresOnePayloadByte :
    ((payloadAt 0 (Vector.replicate 10 0)).phase = .payload ∧ (payloadAt 0 (Vector.replicate 10 0)).cnt.toNat < 7) ∧
    ((payloadAt 6 (Vector.replicate 10 0)).phase = .payload ∧ (payloadAt 6 (Vector.replicate 10 0)).cnt.toNat < 7) := by
  decide

theorem witness_EmitOutputsTheTenBytesAndClearsTheWindow :
    (payloadAt 7 (Vector.replicate 10 0)).phase = .payload ∧ (payloadAt 7 (Vector.replicate 10 0)).cnt = 7 := by decide

theorem witness_IdleChangesNothing :
    State.reset.phase ≠ .closed ∧ (payloadAt 3 (Vector.replicate 10 0)).phase ≠ .closed := by decide

theorem witness_CloseReportsStreamClosedAndKeepsTheRest :
    State.reset.phase ≠ .closed ∧ (payloadAt 7 (Vector.replicate 10 0)).phase ≠ .closed := by decide

theorem witness_ClosedWithNothingPresentedChangesNothing : closedState.phase = .closed := by decide

theorem witness_SymbolPresentedWhileClosedIsRefused :
    closedState.phase = .closed ∧
    decode ⟨.select .sym, (symBits false 3 7 true true 0xA5 0xA5).setWidth 88⟩ = .error .noRow := by decide

theorem witness_UnselectedSynchronizerOperationIsRefused :
    closedState.phase = .closed ∧ State.reset.phase ≠ .closed ∧
    ¬(State.reset.phase = .hunt ∧ State.reset.win0 = 0xA5) ∧
    ¬((huntAt 0 0xA5).phase = .hunt ∧ ¬((huntAt 0 0xA5).win0 = 0xA5 ∧ (0xA5 : Byte) = 0xA5)) ∧
    ¬((payloadAt 7 (Vector.replicate 10 0)).phase = .payload ∧ (payloadAt 7 (Vector.replicate 10 0)).cnt.toNat < 7) ∧
    ¬((payloadAt 6 (Vector.replicate 10 0)).phase = .payload ∧ (payloadAt 6 (Vector.replicate 10 0)).cnt = 7) := by decide

theorem witness_RecognizerReturnsTheDigitOrRaises :
    (0x85#8).extractLsb' 0 7 = 0x05#7 ∧
    ([0x7D#7, 0x05#7, 0x5B#7, 0x1F#7, 0x27#7, 0x3E#7, 0x7E#7, 0x15#7, 0x7F#7, 0x3F#7].all
      (fun p => (0xA5#8).extractLsb' 0 7 != p)) = true := by decide

theorem witness_ValidatePassesExactlyOnLengthTenAndMarker :
    ((10#4) = 10 ∧ v20.extractLsb' 0 8 = 0xA5 ∧ v20.extractLsb' 8 8 = 0xA5) ∧
    ¬((9#4) = 10 ∧ v20.extractLsb' 0 8 = 0xA5 ∧ v20.extractLsb' 8 8 = 0xA5) := by decide

/-- The five branches of the four recognitions. -/
theorem witness_DigitsReportTheFirstInvalidPosition :
    ([⟨0x85, 0x5B, 0x9F, 0x27⟩, ⟨0, 0, 0, 0⟩, ⟨5, 0x6B, 0x1F, 0x20⟩, ⟨5, 0x5B, 0x10, 0xA0⟩, ⟨5, 0x5B, 0x1F, 0xAA⟩] :
        List DigitBytes).map (fun b => (recognise (patternOf b.d3)).isSome && (recognise (patternOf b.d2)).isSome) =
      [true, false, false, true, true] ∧
    ([⟨0x85, 0x5B, 0x9F, 0x27⟩, ⟨5, 0x5B, 0x10, 0xA0⟩, ⟨5, 0x5B, 0x1F, 0xAA⟩] : List DigitBytes).map
      (fun b => ((recognise (patternOf b.d1)).isSome, (recognise (patternOf b.d0)).isSome)) =
      [(true, true), (false, false), (true, false)] := by decide

theorem witness_AccumulatorIsTheWeightedSum :
    (9#4).toNat ≤ 9 ∧ (0#4).toNat ≤ 9 ∧
    ({ Stages.reset with digits := 0x9909 } : Stages).digits = 9#4 ++ 9#4 ++ 0#4 ++ 9#4 := by decide

theorem witness_IntegerConversionIsExact : 0 < 2 ^ 53 ∧ 2 ^ 53 - 1 < 2 ^ 53 := by decide

/-- A dividend that is no integer (123.4), and the finite words of largest magnitude. -/
theorem witness_SingleMarkerValueIsNearest :
    f64Finite 0x405ED9999999999A = true ∧ 0 < 100 ∧ fdiv 0x405ED9999999999A 100 = 0x3FF3BE76C8B43958 ∧
    f64Finite 0x7FEFFFFFFFFFFFFF = true ∧ f64Finite 0xFFEFFFFFFFFFFFFF = true ∧
    (9999#14).toNat ≤ 9999 ∧ (4#3) ∈ ([0, 1, 2, 4] : List (BitVec 3)) := by decide

/-- Ties: 5 and 15 of the smallest unit, divided by 10, lie midway between two words and go to the even one. -/
theorem witness_division_ties : fdiv 5 10 = 0 ∧ fdiv 15 10 = 2 := by decide +kernel

theorem witness_ValueErrorIsAtMostFourHalfUlps : (9999#14).toNat ≤ 9999 ∧ (1#14).toNat ≠ 0 := by decide

/-- The six clauses: wrong length, then V36, V17, V34, V35 of the spec, and V20. -/
theorem witness_DecodeGivesOneReadingOrOneError :
    ([(9, v20), (10, frm [0xA5, 0xA5, 0x8F, 0x00, 0x1B, 0x2F, 0x07]), (10, frm [0xA5, 0xA5, 0x00, 0x65, 0x1B, 0x2F]),
      (10, frm [0xA5, 0xA5, 0x00, 0x55, 0x1B, 0xA0]), (10, frm [0xA5, 0xA5, 0x00, 0x55, 0x1B, 0xAF, 0x0A]), (10, v20)] :
        List (BitVec 4 × Frame)).map
      (fun c => match decodeDframe c.1 c.2 with
        | .ok _ => none
        | .error e => some (e.record.kind, e.record.pos)) =
      [some (1, 0), some (2, 3), some (2, 2), some (2, 1), some (2, 0), none] := by decide

/-- DECODE gives a reading on V20 and an error on V36. -/
theorem witness_decode_reading : decodeDframe 10 v20 = .ok (readingOf v20 0x1234) := by decide

theorem witness_decode_error :
    decodeDframe 10 (frm [0xA5, 0xA5, 0x8F, 0x00, 0x1B, 0x2F, 0x07]) = .error (.invalidDigitPattern 3 0x00 0x80) := by
  decide

/-- The three outcomes: V20, V20 with length 9, and V36. -/
theorem witness_StagesInSequenceEqualDecode :
    (match decodeDframe 10 v20 with | .ok _ => true | .error _ => false) = true ∧
    decodeDframe 9 v20 = .error .malformedFrame ∧
    decodeDframe 10 (frm [0xA5, 0xA5, 0x8F, 0x00, 0x1B, 0x2F, 0x07]) = .error (.invalidDigitPattern 3 0x00 0x80) ∧
    Err.invalidDigitPattern 3 0x00 0x80 ≠ .malformedFrame := by decide

theorem witness_HardwareFormAgreesWithByteLists :
    ([] : List Byte).length ≠ 10 ∧ ([0xA5, 0xA5] : List Byte).length ≠ 10 ∧ lenOfList (List.replicate 20 0xA5) = 15 := by
  decide

theorem witness_PipeRunsTheSelectedOperationThenDecodes :
    (false = false → State.reset.phase = .closed → true = false) ∧
    (false = false → closedState.phase = .closed → false = false) ∧
    (nextOf (exec (tableSelection ⟨false, true, false, 0x00⟩ (payloadAt 7 (Vector.replicate 10 0)))
      (payloadAt 7 (Vector.replicate 10 0)))).map (·.out.frame.isSome) = some true := by decide

theorem witness_DecoderOperationsCompleteAndWriteNoRegister :
    writesRegisters (.decodeFrame 10 v20) = false ∧ writesRegisters .fmtReading = false := by decide

theorem witness_StepExecutesTheDecodedOperation :
    decode State.reset.fetch = .ok .synIdle ∧ decode (State.reset.withFetchWord 8 0x85).fetch = .ok (.dig1 0x85) := by
  decide

theorem witness_DecodeInvertsTheInstructionEncoder :
    (Instr.synEmit 0x08).wf = true ∧ decode (encode (.synEmit 0x08)) = .ok (.synEmit 0x08) ∧
    (Instr.decBaseVolt v20).wf = true ∧ decode (encode (.decBaseVolt v20)) = .ok (.decBaseVolt v20) := by decide

theorem witness_EveryStepKeepsTheInvariant :
    Inv (payloadAt 7 #v[0xA5, 0xA5, 1, 2, 3, 4, 5, 6, 7, 0]) ∧
    (stepOn (payloadAt 7 #v[0xA5, 0xA5, 1, 2, 3, 4, 5, 6, 7, 0]) (.byte 8)).isSome = true := by decide

/-- The statements over runs from HUNT: the states `reset` and `huntAt 0x77 0x00` differ in the older window byte. -/
theorem witness_runs_from_hunt :
    State.reset.phase = .hunt ∧ (huntAt 0x77 0x00).phase = .hunt ∧ State.reset.win0 = (huntAt 0x77 0x00).win0 ∧
    State.reset ≠ huntAt 0x77 0x00 := by decide

theorem witness_TenBytesEmitExactlyTheirFrame :
    State.reset.phase = .hunt ∧ State.reset.win0 ≠ 0xA5 ∧
    ([.byte 0xA5, .idle, .byte 0xA5, .byte 0, .byte 1, .byte 2, .byte 3, .idle, .idle, .byte 4, .byte 5, .byte 6] ++
      [.byte 7] : List Symbol).filter Symbol.taken =
      [.byte 0xA5, .byte 0xA5, .byte 0, .byte 1, .byte 2, .byte 3, .byte 4, .byte 5, .byte 6, .byte 7] := by decide

/-- A step with a frame, a step with EOS and an idle step, each from a state that satisfies the invariant. -/
theorem witness_EveryFrameHasExactlyOneResult :
    (stepOn (payloadAt 7 #v[0xA5, 0xA5, 1, 2, 3, 4, 5, 6, 7, 0]) (.byte 8)).map (·.out.frame.isSome) = some true ∧
    Inv State.reset ∧ (stepOn State.reset .eos).map (·.out.frame) = some none ∧
    (Symbol.eos.ports).symbol (State.reset.ready false) = .eos ∧
    (stepOn State.reset .idle).map (·.out.frame) = some none := by decide

theorem witness_LevelsShowThePhaseBeforeTheStep :
    (State.reset.present (.ports Ports.idle none)).input = .ports Ports.idle none ∧
    (stepOn State.reset .idle).map (fun s => (s.out.sReady, s.out.closed)) = some (true, false) ∧
    (stepOn State.reset .eos).map (·.out.closed) = some false := by decide

/-- A reset step and a step in CLOSED complete, so a DFRAME presented in them is answered. -/
theorem witness_StandaloneDecodeAnswersInEveryStep :
    (nextOf (step { closedState with inbox := [.ports Ports.idle none] })).isSome = true ∧
    (nextOf (step { State.reset with inbox := [.ports ⟨true, true, false, 0xA5⟩ none] })).isSome = true := by decide

/-- V1 and V19 differ in exactly the 16 untested bits. -/
theorem witness_UntestedBitsDoNotAffectDecode :
    frm [0xA5, 0xA5, 0x00, 0x55, 0x1B, 0x2F, 0x07, 0x00, 0x00, 0x00] &&& ~~~(0xFF311930000000000000 : Frame) =
      frm [0xA5, 0xA5, 0x00, 0x55, 0x1B, 0x2F, 0x37, 0x19, 0x31, 0xFF] &&& ~~~(0xFF311930000000000000 : Frame) := by
  decide

/-- V1 and frames that differ from it only in the flag bits (V11e), only in the prefix bits, only in the base-unit bits;
the same changes of a frame with an invalid digit. -/
theorem witness_FlagBitsAffectOnlyTheFlags :
    let v1 := frm [0xA5, 0xA5, 0x00, 0x55, 0x1B, 0x2F, 0x07]
    let bad := frm [0xA5, 0xA5]
    let flags : Frame := 0x000000000000000F0000
    let prefixes : Frame := 0x0000A280000000000000
    let units : Frame := 0x00CE4440000000000000
    v1 ||| flags = frm [0xA5, 0xA5, 0x0F, 0x55, 0x1B, 0x2F, 0x07] ∧
    v1 ||| prefixes = frm [0xA5, 0xA5, 0x00, 0x55, 0x1B, 0x2F, 0x87, 0xA2] ∧
    v1 ||| units = frm [0xA5, 0xA5, 0x00, 0x55, 0x1B, 0x2F, 0x47, 0x44, 0xCE] ∧
    [flags, prefixes, units].all (fun m => v1 &&& ~~~m == (v1 ||| m) &&& ~~~m && bad &&& ~~~m == (bad ||| m) &&& ~~~m &&
      (match decodeDframe 10 v1, decodeDframe 10 (v1 ||| m) with | .ok _, .ok _ => true | _, _ => false) &&
      (match decodeDframe 10 bad, decodeDframe 10 (bad ||| m) with | .error _, .error _ => true | _, _ => false)) = true := by
  decide

/-- Two frames with readings that agree on the 32 digit bits and on no other group: V1 and V1 with all others set. -/
theorem witness_digit_bits_agree :
    let digits : Frame := 0x0000000FFFFFFFF00000
    let v1 := frm [0xA5, 0xA5, 0x00, 0x55, 0x1B, 0x2F, 0x07]
    let other := frm [0xA5, 0xA5, 0x0F, 0x55, 0x1B, 0x2F, 0xF7, 0xFF, 0xFF, 0xFF]
    v1 &&& digits = other &&& digits ∧ decodeDframe 10 v1 = .ok (readingOf v1 0x1234) ∧
    decodeDframe 10 other = .ok (readingOf other 0x1234) := by decide

/-- The three ways: CLOSED with nothing presented, a reset from CLOSED, and EOS from HUNT. -/
theorem witness_OnlyResetLeavesClosed :
    closedState.phase = .closed ∧ (stepOn closedState .idle).map (·.phase) = some .closed ∧
    (stepPorts closedState ⟨true, false, false, 0⟩).map (·.phase) = some .hunt ∧
    State.reset.phase ≠ .closed ∧ (stepOn State.reset .eos).map (·.phase) = some .closed := by decide

end Sys2Proof.Tests
end

section
/-! PROOFS. The binary64 functions of the model against the rationals. A word is taken apart into sign and magnitude, a
quotient of naturals is placed in its binade, and rounding there to the nearest integer, ties to even, is shown nearest
among all numbers of the format: a number finer than the binade's unit lies below the binade. -/

namespace Sys2Proof.Binary64

open Sys2Proof.Machine

/-! ## The fields of a word -/

/-- A word of a sign and a magnitude, which is exponent field and fraction field together. -/
def packWord (neg : Bool) (magnitude : Nat) : F64 :=
  (if neg then 0x8000000000000000 else 0) ||| BitVec.ofNat 64 magnitude

/-- The factor that a sign bit stands for. -/
def signOf (neg : Bool) : ℚ := if neg then -1 else 1

@[simp] theorem abs_signOf (neg : Bool) : |signOf neg| = 1 := by cases neg <;> simp [signOf]

theorem signOf_mul_self (neg : Bool) : signOf neg * signOf neg = 1 := by cases neg <;> simp [signOf]

theorem signOf_not (neg : Bool) : signOf (!neg) = -signOf neg := by cases neg <;> simp [signOf]

theorem f64Finite_iff (a : F64) : f64Finite a = true ↔ (a.extractLsb' 52 11).toNat ≠ 0x7FF := by
  rw [f64Finite, bne_iff_ne, ne_eq, ← BitVec.toNat_inj]
  rfl

/-- The integer significand of a word, with the hidden bit of a number in the normal range. -/
def f64Significand (a : F64) : Nat :=
  if (a.extractLsb' 52 11).toNat = 0 then (a.extractLsb' 0 52).toNat else (a.extractLsb' 0 52).toNat + 2 ^ 52

theorem f64Significand_lt (a : F64) : f64Significand a < 2 ^ 53 := by
  have hfrac := (a.extractLsb' 0 52).isLt
  unfold f64Significand
  split <;> omega

/-- The weight of the significand's last bit, as a power of two. -/
def f64Place (a : F64) : ℤ := ((max (a.extractLsb' 52 11).toNat 1 : ℕ) : ℤ) - 1075

theorem f64Value_eq (a : F64) : f64Value a = signOf a.msb * (f64Significand a * 2 ^ f64Place a) := by
  rw [← mul_assoc]
  simp only [f64Value, signOf, f64Significand, f64Place]
  push_cast
  rfl

theorem packWord_msb (neg : Bool) {m : Nat} (hm : m < 2 ^ 63) : (packWord neg m).msb = neg := by
  have hlow : (BitVec.ofNat 64 m).msb = false := by
    rw [BitVec.msb_eq_false_iff_two_mul_lt, BitVec.toNat_ofNat]; omega
  have hsign : (0x8000000000000000#64).msb = true := by decide
  cases neg <;> simp [packWord, BitVec.msb_or, hlow, hsign]

theorem packWord_exponent (neg : Bool) {m : Nat} (hm : m < 2 ^ 63) :
    ((packWord neg m).extractLsb' 52 11).toNat = m / 2 ^ 52 := by
  have hlow : ((packWord neg m).extractLsb' 52 11) = (BitVec.ofNat 64 m).extractLsb' 52 11 := by
    cases neg <;> simp [packWord, BitVec.extractLsb'_or]
  rw [hlow, BitVec.extractLsb'_toNat, BitVec.toNat_ofNat, Nat.shiftRight_eq_div_pow]
  omega

theorem packWord_fraction (neg : Bool) (m : Nat) :
    ((packWord neg m).extractLsb' 0 52).toNat = m % 2 ^ 52 := by
  have hlow : ((packWord neg m).extractLsb' 0 52) = (BitVec.ofNat 64 m).extractLsb' 0 52 := by
    cases neg <;> simp [packWord, BitVec.extractLsb'_or]
  rw [hlow, BitVec.extractLsb'_toNat, BitVec.toNat_ofNat, Nat.shiftRight_eq_div_pow]
  omega

theorem packWord_lastBit (neg : Bool) (m : Nat) : (packWord neg m).getLsbD 0 = decide (m % 2 = 1) := by
  cases neg <;> simp only [packWord, BitVec.getLsbD_or, BitVec.getLsbD_ofNat] <;> simp [Nat.testBit_zero]

theorem packWord_finite (neg : Bool) {m : Nat} (hm : m < 0x7FF * 2 ^ 52) : f64Finite (packWord neg m) = true := by
  rw [f64Finite_iff, packWord_exponent neg (by omega)]
  omega

/-- The distance of neighbouring numbers in the binade numbered `E`, where `E = 0` is the lowest normal binade together
with the subnormal range. -/
def f64Unit (E : Nat) : ℚ := 2 ^ ((E : ℤ) - 1074)

theorem f64Unit_pos (E : Nat) : 0 < f64Unit E := by unfold f64Unit; positivity

theorem f64Unit_mono {E F : Nat} (h : E ≤ F) : f64Unit E ≤ f64Unit F :=
  zpow_le_zpow_right₀ one_le_two (by omega)

theorem f64Unit_succ (E : Nat) : f64Unit (E + 1) = 2 * f64Unit E := by
  rw [f64Unit, f64Unit, Nat.cast_succ, add_sub_right_comm, zpow_add_one₀ two_ne_zero, mul_comm]

/-- The significand may be `2 ^ 53`: it then carries into the exponent field, and the value is still right. -/
theorem packWord_value (neg : Bool) {E R : Nat} (hcarry : R ≤ 2 ^ 53) (hnormal : E = 0 ∨ 2 ^ 52 ≤ R)
    (hm : E * 2 ^ 52 + R < 2 ^ 63) :
    f64Value (packWord neg (E * 2 ^ 52 + R)) = signOf neg * (R * f64Unit E) := by
  rw [f64Unit, f64Value_eq, f64Significand, f64Place, packWord_msb neg hm, packWord_exponent neg hm, packWord_fraction]
  congr 1
  obtain hsub | hnorm | htop : (E = 0 ∧ R < 2 ^ 52) ∨ (2 ^ 52 ≤ R ∧ R < 2 ^ 53) ∨ R = 2 ^ 53 := by omega
  · obtain ⟨rfl, hR⟩ := hsub
    rw [Nat.zero_mul, Nat.zero_add, Nat.div_eq_of_lt hR, Nat.mod_eq_of_lt hR, if_pos rfl]
    norm_num
  · have hdiv : (E * 2 ^ 52 + R) / 2 ^ 52 = E + 1 := by omega
    have hsig : (E * 2 ^ 52 + R) % 2 ^ 52 + 2 ^ 52 = R := by omega
    rw [hdiv, hsig, if_neg (by omega), max_eq_left (by omega)]
    congr 2
    push_cast
    ring
  · have hdiv : (E * 2 ^ 52 + R) / 2 ^ 52 = E + 2 := by omega
    have hsig : (E * 2 ^ 52 + R) % 2 ^ 52 + 2 ^ 52 = 2 ^ 52 := by omega
    rw [hdiv, hsig, if_neg (by omega), max_eq_left (by omega), htop]
    have hexp : ((E + 2 : ℕ) : ℤ) - 1075 = ((E : ℤ) - 1074) + 1 := by push_cast; ring
    rw [hexp, zpow_add_one₀ two_ne_zero]
    push_cast
    ring

/-! ## Rounding a quotient of naturals -/

/-- The rounding step of `f64Round`: the integer nearest to `n / d`, ties to even. -/
def nearestEven (n d : Nat) : Nat :=
  if 2 * (n % d) > d ∨ (2 * (n % d) = d ∧ n / d % 2 = 1) then n / d + 1 else n / d

theorem nearestEven_half (n : Nat) {d : Nat} (hd : 0 < d) :
    |(nearestEven n d : ℚ) - n / d| ≤ 1 / 2 ∧
    (|(nearestEven n d : ℚ) - n / d| = 1 / 2 → nearestEven n d % 2 = 0) := by
  have hd' : (0 : ℚ) < d := by exact_mod_cast hd
  obtain ⟨q, hq⟩ : ∃ q, q = n / d := ⟨_, rfl⟩
  obtain ⟨r, hr⟩ : ∃ r, r = n % d := ⟨_, rfl⟩
  have hquot : (n : ℚ) / d = q + r / d := by
    have hn : (n : ℚ) = d * q + r := by rw [hq, hr]; exact_mod_cast (Nat.div_add_mod n d).symm
    rw [hn]; field_simp
  have hrd : r < d := hr ▸ Nat.mod_lt n hd
  have hr0 : (0 : ℚ) ≤ r / d := by positivity
  unfold nearestEven
  rw [← hq, ← hr, hquot]
  split
  next hup =>
    have hhalf : (1 : ℚ) / 2 ≤ r / d := by
      rw [div_le_div_iff₀ two_pos hd']; norm_cast; omega
    have hone : (r : ℚ) / d < 1 := by rw [div_lt_one hd']; exact_mod_cast hrd
    have habs : |((q + 1 : ℕ) : ℚ) - (q + r / d)| = 1 - r / d := by
      rw [abs_of_nonneg] <;> push_cast <;> linarith
    rw [habs]
    refine ⟨by linarith, fun htie => ?_⟩
    have : (r : ℚ) / d = 1 / 2 := by linarith
    rw [div_eq_div_iff hd'.ne' two_ne_zero] at this
    norm_cast at this
    omega
  next hdown =>
    have hhalf : (r : ℚ) / d ≤ 1 / 2 := by
      rw [div_le_div_iff₀ hd' two_pos]; norm_cast; omega
    have habs : |(q : ℚ) - (q + r / d)| = r / d := by
      rw [abs_of_nonpos] <;> linarith
    rw [habs]
    refine ⟨hhalf, fun htie => ?_⟩
    rw [div_eq_div_iff hd'.ne' two_ne_zero] at htie
    norm_cast at htie
    omega

/-- An integer within one half of `t` is nearest among the integers, and another is as near only at a tie. -/
theorem int_dist_of_half {R z : ℤ} {t : ℚ} (hhalf : |(R : ℚ) - t| ≤ 1 / 2) :
    |(R : ℚ) - t| ≤ |(z : ℚ) - t| ∧ (|(R : ℚ) - t| = |(z : ℚ) - t| → z = R ∨ |(R : ℚ) - t| = 1 / 2) := by
  obtain rfl | hne := eq_or_ne z R
  · simp
  · have hapart : (1 : ℚ) ≤ |(z : ℚ) - R| := by exact_mod_cast Int.one_le_abs (sub_ne_zero.mpr hne)
    have htri : |(z : ℚ) - R| ≤ |(z : ℚ) - t| + |(R : ℚ) - t| := by
      rw [abs_sub_comm (R : ℚ) t]; exact abs_sub_le _ _ _
    exact ⟨by linarith, fun heq => .inr (by linarith)⟩

/-! ## The grid of binary64 numbers -/

/-- `x` lies in the binade numbered `E`. -/
structure IsBinade (E : Nat) (x : ℚ) : Prop where
  lower : E = 0 ∨ 2 ^ 52 ≤ x / f64Unit E
  upper : x / f64Unit E < 2 ^ 53

/-- The rationals that binary64 would have without an upper end of its exponent range; every word's value is one
(`isBinary64Number_f64Value`). -/
def IsBinary64Number (v : ℚ) : Prop :=
  ∃ z y : ℤ, |z| < 2 ^ 53 ∧ -1074 ≤ y ∧ v = z * 2 ^ y

theorem IsBinary64Number.signOf_mul {v : ℚ} (hv : IsBinary64Number v) (neg : Bool) :
    IsBinary64Number (signOf neg * v) := by
  obtain ⟨z, y, hz, hy, rfl⟩ := hv
  cases neg
  · exact ⟨z, y, hz, hy, by simp [signOf]⟩
  · exact ⟨-z, y, by rwa [abs_neg], hy, by simp [signOf]⟩

theorem isBinary64Number_natCast {n : Nat} (hn : n < 2 ^ 53) : IsBinary64Number n :=
  ⟨n, 0, by rw [Nat.abs_cast]; exact_mod_cast hn, by norm_num, by simp⟩

theorem isBinary64Number_f64Value (a : F64) : IsBinary64Number (f64Value a) := by
  rw [f64Value_eq]
  refine IsBinary64Number.signOf_mul ⟨f64Significand a, f64Place a, ?_, ?_, by rw [Int.cast_natCast]⟩ a.msb
  · rw [Nat.abs_cast]; exact_mod_cast f64Significand_lt a
  · unfold f64Place; omega

/-- Counted in the units of a binade, a number of the format is an integer or lies below the binade. -/
theorem IsBinary64Number.div_f64Unit {v : ℚ} (hv : IsBinary64Number v) (E : Nat) :
    (∃ z : ℤ, v / f64Unit E = z) ∨ (E ≠ 0 ∧ v / f64Unit E < 2 ^ 52) := by
  obtain ⟨z, y, hz, hy, rfl⟩ := hv
  rw [f64Unit, mul_div_assoc, ← zpow_sub₀ two_ne_zero]
  obtain hcoarse | hfine := le_or_gt ((E : ℤ) - 1074) y
  · obtain ⟨k, hk⟩ := Int.eq_ofNat_of_zero_le (sub_nonneg.mpr hcoarse)
    exact .inl ⟨z * 2 ^ k, by rw [hk]; push_cast; simp⟩
  · refine .inr ⟨by omega, ?_⟩
    have hz' : |(z : ℚ)| < 2 ^ 53 := by exact_mod_cast hz
    have hpow : (2 : ℚ) ^ (y - ((E : ℤ) - 1074)) ≤ 2 ^ (-1 : ℤ) := zpow_le_zpow_right₀ one_le_two (by omega)
    calc (z : ℚ) * 2 ^ (y - ((E : ℤ) - 1074)) ≤ |(z : ℚ)| * 2 ^ (-1 : ℤ) := by
          gcongr; exact le_abs_self _
      _ < 2 ^ 52 := by norm_num; linarith

/-- The idea of the rounding proof: rounding to an integer in the binade's units is nearest in the whole format. -/
theorem IsBinary64Number.dist_of_half {v x : ℚ} (hv : IsBinary64Number v) {E R : Nat} (hx : IsBinade E x)
    (hhalf : |(R : ℚ) - x / f64Unit E| ≤ 1 / 2) :
    |R * f64Unit E - x| ≤ |v - x| ∧
    (|R * f64Unit E - x| = |v - x| → v = R * f64Unit E ∨ |(R : ℚ) - x / f64Unit E| = 1 / 2) := by
  have hunit := f64Unit_pos E
  have hdist (w : ℚ) : |w - x| = |w / f64Unit E - x / f64Unit E| * f64Unit E := by
    rw [← sub_div, abs_div, abs_of_pos hunit, div_mul_cancel₀ _ hunit.ne']
  rw [hdist v, hdist, mul_div_cancel_right₀ _ hunit.ne', mul_le_mul_iff_left₀ hunit, mul_left_inj' hunit.ne',
    ← div_eq_iff hunit.ne']
  obtain ⟨z, hz⟩ | ⟨hE, hbelow⟩ := hv.div_f64Unit E
  · rw [hz]
    exact_mod_cast int_dist_of_half (R := R) (z := z) hhalf
  · have hlow := hx.lower.resolve_left hE
    have hint := (int_dist_of_half (R := R) (z := 2 ^ 52) hhalf).1
    have hlt : |(R : ℚ) - x / f64Unit E| < |v / f64Unit E - x / f64Unit E| := by
      refine lt_of_le_of_lt hint ?_
      push_cast
      rw [abs_of_nonpos (by linarith), abs_of_neg (by linarith)]
      linarith
    exact ⟨hlt.le, fun heq => absurd heq hlt.ne⟩

/-! ## The exponent of a quotient -/

/-- The exponent that `f64Round` chooses: the binary logarithm of the quotient, not below the subnormal range. -/
def f64Exponent (num den : Nat) : ℤ :=
  let guess : Int := (num.log2 : Int) - (den.log2 : Int)
  max (if num * 2 ^ (-guess).toNat < den * 2 ^ guess.toNat then guess - 1 else guess) (-1022)

theorem two_pow_toNat_div (i : ℤ) : (2 : ℚ) ^ i.toNat / 2 ^ (-i).toNat = 2 ^ i := by
  rw [← zpow_natCast, ← zpow_natCast, ← zpow_sub₀ two_ne_zero]
  congr 1
  omega

theorem mul_two_pow_lt_iff {num den : Nat} (hden : 0 < den) (g : ℤ) :
    num * 2 ^ (-g).toNat < den * 2 ^ g.toNat ↔ (num : ℚ) / den < 2 ^ g := by
  have hden' : (0 : ℚ) < den := by exact_mod_cast hden
  rw [← two_pow_toNat_div g, div_lt_div_iff₀ hden' (by positivity), mul_comm _ (den : ℚ)]
  norm_cast

theorem le_f64Exponent (num den : Nat) : -1022 ≤ f64Exponent num den := le_max_right _ _

theorem two_zpow_log2_le {num den : Nat} (hnum : 0 < num) (hden : 0 < den) :
    (2 : ℚ) ^ ((num.log2 : ℤ) - den.log2 - 1) ≤ num / den := by
  have hden' : (0 : ℚ) < den := by exact_mod_cast hden
  have hn : (2 : ℚ) ^ num.log2 ≤ num := by exact_mod_cast Nat.log2_self_le hnum.ne'
  have hd : (den : ℚ) < 2 ^ (den.log2 + 1) := by exact_mod_cast Nat.lt_log2_self
  rw [sub_sub, zpow_sub₀ two_ne_zero, zpow_natCast]
  have : (2 : ℚ) ^ ((den.log2 : ℤ) + 1) = 2 ^ (den.log2 + 1) := by norm_cast
  rw [this]
  gcongr

theorem lt_two_zpow_log2 {num den : Nat} (hden : 0 < den) :
    (num : ℚ) / den < 2 ^ ((num.log2 : ℤ) - den.log2 + 1) := by
  have hn : (num : ℚ) < 2 ^ (num.log2 + 1) := by exact_mod_cast Nat.lt_log2_self
  have hd : (2 : ℚ) ^ den.log2 ≤ den := by exact_mod_cast Nat.log2_self_le hden.ne'
  rw [sub_add_eq_add_sub, zpow_sub₀ two_ne_zero, zpow_natCast]
  have : (2 : ℚ) ^ ((num.log2 : ℤ) + 1) = 2 ^ (num.log2 + 1) := by norm_cast
  rw [this]
  gcongr

theorem lt_two_zpow_f64Exponent {num den : Nat} (hden : 0 < den) :
    (num : ℚ) / den < 2 ^ (f64Exponent num den + 1) := by
  have hmono {i j : ℤ} (hij : i ≤ j) : (2 : ℚ) ^ i ≤ 2 ^ j := zpow_le_zpow_right₀ one_le_two hij
  dsimp only [f64Exponent]
  split
  next hbelow =>
    exact lt_of_lt_of_le ((mul_two_pow_lt_iff hden _).mp hbelow) (hmono (by omega))
  next => exact lt_of_lt_of_le (lt_two_zpow_log2 hden) (hmono (by omega))

theorem f64Exponent_eq_or_two_zpow_le {num den : Nat} (hnum : 0 < num) (hden : 0 < den) :
    f64Exponent num den = -1022 ∨ (2 : ℚ) ^ f64Exponent num den ≤ num / den := by
  dsimp only [f64Exponent]
  split
  next =>
    exact (max_choice _ _).symm.imp id fun h => by rw [h]; exact two_zpow_log2_le hnum hden
  next habove =>
    exact (max_choice _ _).symm.imp id fun h => by
      rw [h]; exact not_lt.mp (mt (mul_two_pow_lt_iff hden _).mpr habove)

/-! ## What `f64Round` gives -/

/-- The number of the binade in which `f64Round` rounds. -/
def f64BiasedExponent (num den : Nat) : Nat := (f64Exponent num den + 1022).toNat

/-- The quotient in units of its binade, rounded. -/
def f64RoundedSignificand (num den : Nat) : Nat :=
  nearestEven (num * 2 ^ (52 - f64Exponent num den).toNat) (den * 2 ^ (f64Exponent num den - 52).toNat)

theorem f64Round_zero (neg : Bool) (den : Nat) : f64Round neg 0 den = packWord neg 0 := by
  cases neg <;> simp [f64Round, packWord]

theorem f64Round_eq_packWord (neg : Bool) {num den : Nat} (hnum : 0 < num) (hden : 0 < den) :
    f64Round neg num den =
      packWord neg (min (f64BiasedExponent num den * 2 ^ 52 + f64RoundedSignificand num den) (0x7FF * 2 ^ 52)) := by
  have hpos : ¬(num = 0 ∨ den = 0) := by omega
  simp only [f64Round, if_neg hpos]
  rfl

theorem f64Unit_f64BiasedExponent (num den : Nat) :
    f64Unit (f64BiasedExponent num den) = 2 ^ (f64Exponent num den - 52) := by
  have := le_f64Exponent num den
  rw [f64Unit, f64BiasedExponent]
  congr 1
  omega

theorem isBinade_f64BiasedExponent {num den : Nat} (hnum : 0 < num) (hden : 0 < den) :
    IsBinade (f64BiasedExponent num den) (num / den) where
  lower := by
    refine (f64Exponent_eq_or_two_zpow_le hnum hden).imp (fun h => by simp [f64BiasedExponent, h]) fun h => ?_
    rw [f64Unit_f64BiasedExponent, le_div_iff₀ (by positivity), ← zpow_natCast, ← zpow_add₀ two_ne_zero]
    simpa using h
  upper := by
    rw [f64Unit_f64BiasedExponent, div_lt_iff₀ (by positivity), ← zpow_natCast, ← zpow_add₀ two_ne_zero]
    have hexp : ((53 : ℕ) : ℤ) + (f64Exponent num den - 52) = f64Exponent num den + 1 := by push_cast; ring
    exact hexp ▸ lt_two_zpow_f64Exponent hden

theorem f64RoundedSignificand_half (num : Nat) {den : Nat} (hden : 0 < den) :
    |(f64RoundedSignificand num den : ℚ) - num / den / f64Unit (f64BiasedExponent num den)| ≤ 1 / 2 ∧
    (|(f64RoundedSignificand num den : ℚ) - num / den / f64Unit (f64BiasedExponent num den)| = 1 / 2 →
      f64RoundedSignificand num den % 2 = 0) := by
  have hscale : (num : ℚ) / den / f64Unit (f64BiasedExponent num den) =
      ((num * 2 ^ (52 - f64Exponent num den).toNat : ℕ) : ℚ) / (den * 2 ^ (f64Exponent num den - 52).toNat : ℕ) := by
    rw [f64Unit_f64BiasedExponent, ← two_pow_toNat_div, neg_sub, div_div_eq_mul_div, div_mul_eq_mul_div, div_div]
    push_cast
    rfl
  rw [hscale]
  exact nearestEven_half _ (by positivity)

/-- The largest finite number. -/
def f64Max : ℚ := (2 ^ 53 - 1) * f64Unit 2045

/-- Rounding cannot carry a magnitude that is at most the largest finite one beyond it. -/
theorem magnitude_lt_infinity {E R : Nat} {x : ℚ} (hx : IsBinade E x) (hhalf : |(R : ℚ) - x / f64Unit E| ≤ 1 / 2)
    (hmax : x ≤ f64Max) (hR : R ≤ 2 ^ 53) : E * 2 ^ 52 + R < 0x7FF * 2 ^ 52 := by
  have hpos := f64Unit_pos E
  obtain hE | rfl | hE : E < 2045 ∨ E = 2045 ∨ 2046 ≤ E := by omega
  · omega
  · have hquot : x / f64Unit 2045 ≤ 2 ^ 53 - 1 := by
      unfold f64Max at hmax
      exact (div_le_iff₀ hpos).mpr hmax
    have hRq : (R : ℚ) < (2 ^ 53 : ℕ) := by push_cast; linarith [(abs_le.mp hhalf).2]
    have hRn : R < 2 ^ 53 := Nat.cast_lt.mp hRq
    omega
  · have hlow : 2 ^ 52 * f64Unit E ≤ x := (le_div_iff₀ hpos).mp (hx.lower.resolve_left (by omega))
    have hdouble : 2 * f64Unit 2045 ≤ f64Unit E := f64Unit_succ 2045 ▸ f64Unit_mono hE
    unfold f64Max at hmax
    linarith [f64Unit_pos 2045]

theorem significand_bounds {E R : Nat} {x : ℚ} (hx : IsBinade E x) (hhalf : |(R : ℚ) - x / f64Unit E| ≤ 1 / 2) :
    R ≤ 2 ^ 53 ∧ (E = 0 ∨ 2 ^ 52 ≤ R) := by
  obtain ⟨hlo, hhi⟩ := abs_le.mp hhalf
  refine ⟨?_, hx.lower.imp_right fun hlow => ?_⟩
  · have : (R : ℚ) < 2 ^ 53 + 1 := by linarith [hx.upper]
    norm_cast at this
    omega
  · have : (2 : ℚ) ^ 52 < R + 1 := by linarith
    norm_cast at this
    omega

/-- `r` is the correctly rounded word of `x` (R16): finite, nearest, and even where two numbers are equally near. -/
structure IsRoundingOf (r : F64) (x : ℚ) : Prop where
  finite : f64Finite r = true
  nearest : ∀ v, IsBinary64Number v → |f64Value r - x| ≤ |v - x|
  tie_even : ∀ v, IsBinary64Number v → |f64Value r - x| = |v - x| → v ≠ f64Value r → r.getLsbD 0 = false

theorem abs_signOf_mul_sub (neg : Bool) (v x : ℚ) : |signOf neg * v - x| = |v - signOf neg * x| := by
  cases neg
  · simp [signOf]
  · rw [← abs_neg]; simp [signOf]; ring_nf

theorem isRoundingOf_packWord {neg : Bool} {E R : Nat} {x : ℚ} (hx : IsBinade E x) (hmax : x ≤ f64Max)
    (hhalf : |(R : ℚ) - x / f64Unit E| ≤ 1 / 2) (heven : |(R : ℚ) - x / f64Unit E| = 1 / 2 → R % 2 = 0) :
    IsRoundingOf (packWord neg (E * 2 ^ 52 + R)) (signOf neg * x) := by
  obtain ⟨hR, hnormal⟩ := significand_bounds hx hhalf
  have hfin := magnitude_lt_infinity hx hhalf hmax hR
  have hvalue := packWord_value neg hR hnormal (by omega)
  have hdist : |f64Value (packWord neg (E * 2 ^ 52 + R)) - signOf neg * x| = |R * f64Unit E - x| := by
    rw [hvalue, ← mul_sub, abs_mul, abs_signOf, one_mul]
  refine ⟨packWord_finite neg hfin, fun v hv => ?_, fun v hv heq hne => ?_⟩
  · rw [hdist, ← abs_signOf_mul_sub]
    exact ((hv.signOf_mul neg).dist_of_half hx hhalf).1
  · rw [hdist, ← abs_signOf_mul_sub] at heq
    obtain hsame | htie := ((hv.signOf_mul neg).dist_of_half hx hhalf).2 heq
    · rw [hvalue, ← hsame, ← mul_assoc, signOf_mul_self, one_mul] at hne
      exact absurd rfl hne
    · have := heven htie
      rw [packWord_lastBit]
      exact decide_eq_false (by omega)

theorem f64Round_msb (neg : Bool) (num : Nat) {den : Nat} (hden : 0 < den) : (f64Round neg num den).msb = neg := by
  obtain rfl | hnum := num.eq_zero_or_pos
  · rw [f64Round_zero]; exact packWord_msb neg (by norm_num)
  · rw [f64Round_eq_packWord neg hnum hden]; exact packWord_msb neg (by omega)

theorem isRoundingOf_packWord_zero (neg : Bool) : IsRoundingOf (packWord neg 0) 0 where
  finite := packWord_finite neg (by norm_num)
  nearest v _ := by
    have hvalue := packWord_value neg (E := 0) (R := 0) (by norm_num) (.inl rfl) (by norm_num)
    rw [zero_mul, zero_add] at hvalue
    simp [hvalue]
  tie_even _ _ _ _ := packWord_lastBit neg 0

theorem f64Round_isRoundingOf (neg : Bool) (num : Nat) {den : Nat} (hden : 0 < den)
    (hmax : (num : ℚ) / den ≤ f64Max) : IsRoundingOf (f64Round neg num den) (signOf neg * (num / den)) := by
  obtain rfl | hnum := num.eq_zero_or_pos
  · simpa [f64Round_zero] using isRoundingOf_packWord_zero neg
  · have hx := isBinade_f64BiasedExponent hnum hden
    obtain ⟨hhalf, heven⟩ := f64RoundedSignificand_half num hden
    have hfin := magnitude_lt_infinity hx hhalf hmax (significand_bounds hx hhalf).1
    rw [f64Round_eq_packWord neg hnum hden, min_eq_left hfin.le]
    exact isRoundingOf_packWord hx hmax hhalf heven

theorem IsRoundingOf.eq_of_isBinary64Number {r : F64} {x : ℚ} (hr : IsRoundingOf r x) (hx : IsBinary64Number x) :
    f64Value r = x := by
  simpa [sub_eq_zero] using hr.nearest x hx

/-! ## Conversion and division -/

theorem f64OfNat_isRoundingOf {n : Nat} (hn : n < 2 ^ 53) : IsRoundingOf (f64OfNat n) n := by
  have hmax : (n : ℚ) / (1 : ℕ) ≤ f64Max := by
    have hn' : (n : ℚ) + 1 ≤ 2 ^ 53 := by exact_mod_cast hn
    have hunit : f64Unit 1074 ≤ f64Unit 2045 := f64Unit_mono (by norm_num)
    have hone : f64Unit 1074 = 1 := by norm_num [f64Unit]
    rw [Nat.cast_one, div_one, f64Max]
    linarith
  simpa [f64OfNat, signOf] using f64Round_isRoundingOf false n one_pos hmax

theorem fdiv_eq_f64Round {a : F64} (ha : f64Finite a = true) (k : Nat) :
    fdiv a k = f64Round a.msb (f64Significand a * 2 ^ (f64Place a).toNat) (k * 2 ^ (-f64Place a).toNat) := by
  simp only [fdiv, if_neg ((f64Finite_iff a).mp ha)]
  rfl

theorem magnitude_le_f64Max {a : F64} (ha : f64Finite a = true) : f64Significand a * (2 : ℚ) ^ f64Place a ≤ f64Max := by
  have hexp := (f64Finite_iff a).mp ha
  have hsig : (f64Significand a : ℚ) + 1 ≤ 2 ^ 53 := by exact_mod_cast f64Significand_lt a
  have hplace : (2 : ℚ) ^ f64Place a ≤ f64Unit 2045 :=
    zpow_le_zpow_right₀ one_le_two (by have := (a.extractLsb' 52 11).isLt; unfold f64Place; omega)
  exact mul_le_mul (by linarith) hplace (by positivity) (by norm_num)

theorem fdiv_msb {a : F64} (ha : f64Finite a = true) {k : Nat} (hk : 0 < k) : (fdiv a k).msb = a.msb := by
  rw [fdiv_eq_f64Round ha]
  exact f64Round_msb _ _ (by positivity)

theorem fdiv_isRoundingOf {a : F64} (ha : f64Finite a = true) {k : Nat} (hk : 0 < k) :
    IsRoundingOf (fdiv a k) (f64Value a / k) := by
  have hquot : ((f64Significand a * 2 ^ (f64Place a).toNat : ℕ) : ℚ) / (k * 2 ^ (-f64Place a).toNat : ℕ) =
      f64Significand a * 2 ^ f64Place a / k := by
    rw [← two_pow_toNat_div (f64Place a)]
    push_cast
    field_simp
  have hmax : (f64Significand a : ℚ) * 2 ^ f64Place a / k ≤ f64Max :=
    (div_le_self (by positivity) (by exact_mod_cast hk)).trans (magnitude_le_f64Max ha)
  rw [fdiv_eq_f64Round ha, f64Value_eq, mul_div_assoc, ← hquot]
  exact f64Round_isRoundingOf _ _ (by positivity) (hquot ▸ hmax)

theorem fneg_finite (a : F64) : f64Finite (fneg a) = f64Finite a := by
  simp [f64Finite, fneg, BitVec.extractLsb'_xor]

theorem fneg_value (a : F64) : f64Value (fneg a) = -f64Value a := by
  have hmsb : (fneg a).msb = !a.msb := by
    have hsign : (0x8000000000000000#64).msb = true := by decide
    simp [fneg, hsign]
  have hexp : (fneg a).extractLsb' 52 11 = a.extractLsb' 52 11 := by
    simp [fneg, BitVec.extractLsb'_xor]
  have hfrac : (fneg a).extractLsb' 0 52 = a.extractLsb' 0 52 := by
    simp [fneg, BitVec.extractLsb'_xor]
  simp only [f64Value_eq, f64Significand, f64Place, hmsb, hexp, hfrac, signOf_not, neg_mul]

theorem applySign_finite (neg : Bool) (a : F64) : f64Finite (applySign neg a) = f64Finite a := by
  cases neg <;> simp [applySign, fneg_finite]

theorem applySign_value (neg : Bool) (a : F64) : f64Value (applySign neg a) = signOf neg * f64Value a := by
  cases neg <;> simp [applySign, signOf, fneg_value]

theorem scale_isRoundingOf {mag : BitVec 14} {dp : BitVec 3} (hdp : dp ∈ [(0 : BitVec 3), 1, 2, 4]) :
    IsRoundingOf (scale mag dp) (mag.toNat / 10 ^ (exponentOf dp).toNat) := by
  have hmag : mag.toNat < 2 ^ 53 := mag.isLt.trans (by norm_num)
  have hint := f64OfNat_isRoundingOf hmag
  have hdiv (k e : Nat) (hk : k = 10 ^ e) : IsRoundingOf (fdiv (f64OfNat mag.toNat) k) (mag.toNat / 10 ^ e) := by
    have hr := fdiv_isRoundingOf hint.finite (k := k) (hk ▸ by positivity)
    rw [hint.eq_of_isBinary64Number (isBinary64Number_natCast hmag)] at hr
    simpa [hk] using hr
  simp only [List.mem_cons, List.not_mem_nil, or_false] at hdp
  obtain rfl | rfl | rfl | rfl := hdp
  · simpa [scale, divideIf, exponentOf] using hint
  · simpa [scale, divideIf, exponentOf, dpDivisor0] using hdiv 10 1 (by norm_num)
  · simpa [scale, divideIf, exponentOf, dpDivisor1] using hdiv 100 2 (by norm_num)
  · simpa [scale, divideIf, exponentOf, dpDivisor2] using hdiv 1000 3 (by norm_num)

end Sys2Proof.Binary64
end

section
/-! PROOFS. The statements about floating point and about the step of the machine. -/

namespace Sys2Proof.Proofs

open Sys2Proof.Machine Sys2Proof.Binary64

/-- Settles O26: `F64(n)` rounds `n`, which is a number of the format, so nothing is lost. -/
theorem integerConversionIsExact : Obligations.IntegerConversionIsExact := by
  intro n hn
  have hr := f64OfNat_isRoundingOf hn
  exact ⟨hr.finite, hr.eq_of_isBinary64Number (isBinary64Number_natCast hn)⟩

/-- Settles O27: `fdiv` rounds correctly, and with at most one marker `rd_value` is one rounding of the exact value, up
to the sign, under which the format is closed. -/
theorem singleMarkerValueIsNearest : Obligations.SingleMarkerValueIsNearest := by
  refine ⟨fun a k ha hk => ?_, fun mag dp neg _ hdp => ?_⟩
  · have hr := fdiv_isRoundingOf ha hk
    exact ⟨hr.finite, fdiv_msb ha hk, fun w _ =>
      ⟨hr.nearest _ (isBinary64Number_f64Value w), hr.tie_even _ (isBinary64Number_f64Value w)⟩⟩
  · have hr := scale_isRoundingOf (mag := mag) hdp
    refine ⟨(applySign_finite neg _).trans hr.finite, fun w _ => ?_⟩
    have hexact : exactValue mag dp neg = signOf neg * (mag.toNat / 10 ^ (exponentOf dp).toNat) := mul_div_assoc _ _ _
    rw [hexact, valueOf, applySign_value, ← mul_sub, abs_mul, abs_signOf, one_mul, ← abs_signOf_mul_sub]
    exact hr.nearest _ ((isBinary64Number_f64Value w).signOf_mul neg)

/-- Settles O43: a decodable input takes the first branch of `step`. -/
theorem stepExecutesTheDecodedOperation : Obligations.StepExecutesTheDecodedOperation := by
  intro s i hdecode
  simp only [step, hdecode]

end Sys2Proof.Proofs
end

section
/-! PROOFS. What a step can do, said once: the operation that the input signals select is the one of the table of R101
written out; a Synchronizer operation completes with one of eight effects; a Recognizer, Decoder or formatter operation
writes only stage results and the standalone outputs, and keeps the ranges of R178 and R93. -/

namespace Sys2Proof.Machine

/-! ## The selected operation -/

/-- The decoder's rows, masks and priorities give the table of R101: the first row that applies is the table's line. -/
theorem selected_eq_tableSelection (p : Ports) (s : State) : selected p s = .ok (tableSelection p s) := by
  obtain ⟨rst, valid, eos, data⟩ := p
  rw [selected, selWord, decode_select .sym _ (symBits_toNat_lt ..)]
  simp only [select, Fmt.prioritised, List.find?, applies_synReset, applies_synNostep, applies_synIdle,
    applies_synClose, applies_synLock, applies_synShift, applies_synEmit, applies_synFill, tableSelection,
    Ports.symbol, State.ready, State.isClosed]
  cases rst with
  | true => rfl
  | false =>
    cases hphase : s.phase with
    | closed => simp [Phase.code, build, selValid_symBits]
    | hunt =>
      cases valid with
      | false => rfl
      | true =>
        cases eos with
        | true => rfl
        | false =>
          by_cases hlock : s.win0 = 0xA5#8 ∧ data = 0xA5#8
          · simp [Phase.code, build, hlock]
          · have hrow : (data == 0xA5#8 && s.win0 == 0xA5#8) = false := by grind
            simp [Phase.code, build, selData_symBits, hlock, hrow]
    | payload =>
      cases valid with
      | false => rfl
      | true =>
        cases eos with
        | true => rfl
        | false =>
          by_cases hlast : s.cnt = 7#3
          · simp [Phase.code, build, selData_symBits, hlast]
          · have hrow : (s.cnt == 7#3) = false := by simpa using hlast
            simp [Phase.code, build, selData_symBits, hlast, hrow]

/-- What every line of the table of R101 has. -/
theorem tableSelection_forall {P : Instr → Prop} (p : Ports) (s : State) (reset : p.rst = true → P .synReset)
    (nostep : p.rst = false → P (.synNostep p.valid)) (idle : p.rst = false → P .synIdle)
    (close : p.rst = false → P .synClose) (lock : p.rst = false → P .synLock)
    (shift : p.rst = false → ∀ b, P (.synShift b)) (emit : p.rst = false → ∀ b, P (.synEmit b))
    (fill : p.rst = false → ∀ b, P (.synFill b)) : P (tableSelection p s) := by
  unfold tableSelection
  by_cases hrst : p.rst = true
  · rw [if_pos hrst]
    exact reset hrst
  · rw [if_neg hrst]
    rw [Bool.not_eq_true] at hrst
    cases s.phase with
    | closed => exact nostep hrst
    | hunt =>
      cases p.symbol (s.ready p.rst) with
      | idle => exact idle hrst
      | eos => exact close hrst
      | byte b =>
        dsimp only
        split_ifs
        · exact lock hrst
        · exact shift hrst b
    | payload =>
      cases p.symbol (s.ready p.rst) with
      | idle => exact idle hrst
      | eos => exact close hrst
      | byte b =>
        dsimp only
        split_ifs
        · exact emit hrst b
        · exact fill hrst b

/-- The selected operation is the reset exactly when `rst = 1` (R101, R128). -/
@[simp] theorem tableSelection_rst (p : Ports) (s : State) : (tableSelection p s).rst = p.rst :=
  tableSelection_forall (P := fun i => i.rst = p.rst) p s (fun h => h.symm) (fun h => h.symm) (fun h => h.symm)
    (fun h => h.symm) (fun h => h.symm) (fun h _ => h.symm) (fun h _ => h.symm) (fun h _ => h.symm)

/-- The selected operation is one of the Synchronizer's. -/
theorem exec_tableSelection (p : Ports) (s t : State) : exec (tableSelection p s) t = runSyn (tableSelection p s) t :=
  tableSelection_forall (P := fun i => exec i t = runSyn i t) p s (fun _ => rfl) (fun _ => rfl) (fun _ => rfl)
    (fun _ => rfl) (fun _ => rfl) (fun _ _ => rfl) (fun _ _ => rfl) (fun _ _ => rfl)

/-! ## The Synchronizer's operations -/

/-- What a Synchronizer operation that completes has found and done (R122 to R129): `SynEffect s i t` when operation `i`
takes the state `s` to `t`. -/
inductive SynEffect (s : State) : Instr → State → Prop where
  | reset : SynEffect s .synReset ((s.setSeq .hunt 0).setWindow winReset1 winReset0).forgetFbuf
  | nostep : s.phase = .closed → SynEffect s (.synNostep false) s
  | idle : s.phase ≠ .closed → SynEffect s .synIdle s
  | close : s.phase ≠ .closed → SynEffect s .synClose ((s.setSeq .closed s.cnt).raise .pipeline .streamClosed)
  | lock : s.phase = .hunt → s.win0 = sync0 →
      SynEffect s .synLock ((((s.setWindow s.win0 sync1).storeByte 0 sync0).storeByte 1 sync1).setSeq .payload 0)
  | shift (b : Byte) : s.phase = .hunt → ¬(s.win0 = sync0 ∧ b = sync1) →
      SynEffect s (.synShift b) (s.setWindow s.win0 b)
  | emit (b : Byte) : s.phase = .payload → s.cnt = cntLast →
      SynEffect s (.synEmit b)
        ((((s.storeByte (fillIndex s.cnt) b).emitFrame (busOf (s.storeByte (fillIndex s.cnt) b).fbuf)).setSeq
          .hunt 0).setWindow winReset1 winReset0)
  | fill (b : Byte) : s.phase = .payload → s.cnt ≠ cntLast →
      SynEffect s (.synFill b) ((s.storeByte (fillIndex s.cnt) b).setSeq .payload (s.cnt + 1))

/-- A Synchronizer operation completes exactly with its effect. -/
theorem runSyn_eq_next_iff (i : Instr) (s t : State) : runSyn i s = .next t ↔ SynEffect s i t := by
  constructor
  · intro h
    cases i with
    | synReset => cases h; exact .reset
    | synNostep valid =>
      simp only [runSyn, execSynNostep] at h
      split_ifs at h with hclosed hvalid
      cases h; cases valid
      · exact .nostep (s.isClosed_iff.mp hclosed)
      · exact absurd rfl hvalid
    | synIdle =>
      simp only [runSyn, execSynIdle] at h
      split_ifs at h with hclosed
      cases h; exact .idle (s.isClosed_iff.not.mp hclosed)
    | synClose =>
      simp only [runSyn, execSynClose] at h
      split_ifs at h with hclosed
      cases h; exact .close (s.isClosed_iff.not.mp hclosed)
    | synLock =>
      simp only [runSyn, execSynLock] at h
      split_ifs at h with hlock
      cases h; exact .lock hlock.1 hlock.2
    | synShift b =>
      simp only [runSyn, execSynShift] at h
      split_ifs at h with hshift
      cases h; exact .shift b hshift.1 hshift.2
    | synEmit b =>
      simp only [runSyn, execSynEmit] at h
      split_ifs at h with hemit
      cases h; exact .emit b hemit.1 hemit.2
    | synFill b =>
      simp only [runSyn, execSynFill] at h
      split_ifs at h with hfill
      cases h; exact .fill b hfill.1 hfill.2
    | _ => cases h
  · intro h
    cases h with
    | reset => rfl
    | nostep hclosed => simp [runSyn, execSynNostep, s.isClosed_iff, hclosed]
    | idle hopen => simp [runSyn, execSynIdle, s.isClosed_iff, hopen]
    | close hopen => simp [runSyn, execSynClose, s.isClosed_iff, hopen]
    | lock hphase hwin => simp [runSyn, execSynLock, hphase, hwin]
    | shift b hphase hwin => simp [runSyn, execSynShift, hphase, hwin]
    | emit b hphase hcnt => simp [runSyn, execSynEmit, hphase, hcnt]
    | fill b hphase hcnt => simp [runSyn, execSynFill, hphase, hcnt]

theorem SynEffect.stages {s t : State} {i : Instr} (h : SynEffect s i t) : t.stages = s.stages := by
  cases h <;> simp

theorem SynEffect.inbox {s t : State} {i : Instr} (h : SynEffect s i t) : t.inbox = s.inbox := by
  cases h <;> simp

/-- The frame position after the next byte, when that byte is not the last (R124). -/
theorem fillIndex_succ {cnt : BitVec 3} (h : cnt ≠ cntLast) : fillIndex (cnt + 1) = fillIndex cnt + 1 := by
  have hlt : cnt.toNat + 1 < 8 := by
    have hne : cnt.toNat ≠ 7 := fun h7 => h (BitVec.eq_of_toNat_eq h7)
    omega
  simp only [fillIndex, BitVec.toNat_add]
  change windowLen + (cnt.toNat + 1) % 8 = _
  rw [Nat.mod_eq_of_lt hlt, Nat.add_assoc]

/-! ## The operations that write no register -/

/-- The ranges of R178 and R93 on the stage results. -/
structure Stages.InRange (st : Stages) : Prop where
  digits : ∀ n < 4, (digitAt st.digits n).toNat ≤ 9
  recog : ∀ d ∈ st.recog, d.toNat ≤ 9
  mag : st.mag.toNat ≤ 9999
  base : st.base.toNat ≤ 8
  unitLen : st.unitLen.toNat ≤ 9

/-- Four recognised digits are each at most 9 (R174, R178). -/
theorem digitAt_le_nine_of_recogniseAll {b : DigitBytes} {digits : BitVec 16} (h : recogniseAll b = .ok digits) :
    ∀ n < 4, (digitAt digits n).toNat ≤ 9 := by
  obtain ⟨d3, d2, d1, d0, h3, h2, h1, h0, hok⟩ | ⟨pos, d, -, herr⟩ := recogniseAll_cases b
  · cases hok.symm.trans h
    intro n hn
    interval_cases n
    · simpa using recognise_le_nine h0
    · simpa using recognise_le_nine h1
    · simpa using recognise_le_nine h2
    · simpa using recognise_le_nine h3
  · cases herr.symm.trans h

/-- N of digits in range is at most 9999 (R175, R178). -/
theorem accumulate_le {digits : BitVec 16} (h : ∀ n < 4, (digitAt digits n).toNat ≤ 9) :
    (accumulate digits).toNat ≤ 9999 := by
  have h3 := h 3 (by decide)
  have h2 := h 2 (by decide)
  have h1 := h 1 (by decide)
  have h0 := h 0 (by decide)
  rw [accumulate_toNat digits h3 h2 h1 h0]
  omega

/-- One line of the override chain gives a code of 1 to 8 or keeps the earlier one (R202, R93). -/
theorem overrideBase_le_eight (f : Frame) (j : Fin 8) {code : BitVec 4} (h : code.toNat ≤ 8) :
    (overrideBase f j code).toNat ≤ 8 := by
  unfold overrideBase
  split_ifs
  · have := j.isLt
    rw [BitVec.toNat_ofNat]
    omega
  · exact h

/-- What an operation of Recognizer, Decoder or formatter does (R100, column "writes"): only stage results and the
standalone outputs differ, and the stage results stay in range. -/
structure StageEffect (s t : State) : Prop where
  frame : ∃ st reading error, t = { s with stages := st, out := { s.out with aReading := reading, aError := error } }
  inRange : s.stages.InRange → t.stages.InRange

namespace StageEffect

theorem refl (s : State) : StageEffect s s := ⟨⟨_, _, _, rfl⟩, id⟩

theorem trans {s t u : State} (hst : StageEffect s t) (htu : StageEffect t u) : StageEffect s u := by
  obtain ⟨_, _, _, rfl⟩ := hst.frame
  obtain ⟨_, _, _, rfl⟩ := htu.frame
  exact ⟨⟨_, _, _, rfl⟩, htu.inRange ∘ hst.inRange⟩

theorem setStages (s : State) {st : Stages} (h : s.stages.InRange → st.InRange) : StageEffect s (s.setStages st) :=
  ⟨⟨_, _, _, rfl⟩, h⟩

theorem raise (s : State) (e : Err) : StageEffect s (s.raise .alone e) := ⟨⟨_, _, _, rfl⟩, id⟩

theorem emitReading (s : State) (r : Reading) : StageEffect s (s.emitReading .alone r) := ⟨⟨_, _, _, rfl⟩, id⟩

theorem emitResult (s : State) (r : Except Err Reading) : StageEffect s (s.emitResult .alone r) := by
  cases r with
  | ok r => exact emitReading s r
  | error e => exact raise s e

theorem setRecog (s : State) (r : Option (BitVec 4)) (h : ∀ d ∈ r, d.toNat ≤ 9) : StageEffect s (s.setRecog r) :=
  setStages s fun hs => { hs with recog := h }

theorem setRecog_recognised (s : State) {p : Pattern} {d : BitVec 4} (h : recognise p = some d) :
    StageEffect s (s.setRecog (some d)) :=
  setRecog s _ fun _ he => Option.some.inj he ▸ recognise_le_nine h

theorem setRecog_raise (s : State) (e : Err) : StageEffect s ((s.setRecog none).raise .alone e) :=
  (setRecog s none nofun).trans (raise _ e)

theorem recogniseCase (d : Byte) (digit : BitVec 4) (s : State) : StageEffect s (recogniseCase d digit s) := by
  unfold Machine.recogniseCase
  split_ifs with h
  · exact setRecog_recognised s h
  · exact refl s

theorem recogniseInvalid (d : Byte) (s : State) : StageEffect s (recogniseInvalid d s) := by
  unfold Machine.recogniseInvalid
  split_ifs
  · exact setRecog_raise s _
  · exact refl s

theorem setValid (s : State) (v : Bool) : StageEffect s (s.setStages { s.stages with valid := v }) :=
  setStages s fun hs => { hs with }

theorem setValid_raise (s : State) (e : Err) :
    StageEffect s ((s.setStages { s.stages with valid := false }).raise .alone e) :=
  (setValid s false).trans (raise _ e)

theorem scaleCase (marker : Bool) (e : BitVec 3) (k : Nat) (s : State) : StageEffect s (scaleCase marker e k s) := by
  unfold Machine.scaleCase
  split_ifs
  · exact setStages s fun hs => { hs with }
  · exact refl s

theorem flagCase (set : Bool) (flag : BitVec 4) (s : State) : StageEffect s (flagCase set flag s) := by
  unfold Machine.flagCase
  split_ifs
  · exact setStages s fun hs => { hs with }
  · exact refl s

theorem prefixCase (f : Frame) (j : Fin 5) (s : State) : StageEffect s (prefixCase f j s) := by
  unfold Machine.prefixCase
  split_ifs
  · exact setStages s fun hs => { hs with }
  · exact refl s

theorem baseCase (f : Frame) (j : Fin 8) (s : State) : StageEffect s (baseCase f j s) :=
  setStages s fun hs => { hs with base := overrideBase_le_eight f j hs.base }

end StageEffect

theorem execDigRecog_stageEffect (d : Byte) (s : State) : ∃ t, execDigRecog d s = .next t ∧ StageEffect s t := by
  unfold execDigRecog
  cases h : recognise (patternOf d) with
  | some digit => exact ⟨_, rfl, .setRecog_recognised s h⟩
  | none => exact ⟨_, rfl, .setRecog_raise s _⟩

theorem execDecValidate_stageEffect (len : BitVec 4) (f : Frame) (s : State) :
    ∃ t, execDecValidate len f s = .next t ∧ StageEffect s t := by
  unfold execDecValidate
  split_ifs
  · exact ⟨_, rfl, .setValid s true⟩
  · exact ⟨_, rfl, .setValid_raise s _⟩

theorem execDecValidatePass_stageEffect (len : BitVec 4) (f : Frame) (s : State) :
    ∃ t, execDecValidatePass len f s = .next t ∧ StageEffect s t := by
  unfold execDecValidatePass
  split_ifs
  · exact ⟨_, rfl, .setValid s true⟩
  · exact ⟨_, rfl, .refl s⟩

theorem execDecValidateFail_stageEffect (len : BitVec 4) (f : Frame) (s : State) :
    ∃ t, execDecValidateFail len f s = .next t ∧ StageEffect s t := by
  unfold execDecValidateFail
  split_ifs
  · exact ⟨_, rfl, .refl s⟩
  · exact ⟨_, rfl, .setValid_raise s _⟩

theorem execDecDigits_stageEffect (s : State) : ∃ t, execDecDigits s = .next t ∧ StageEffect s t := by
  unfold execDecDigits
  cases h : recogniseAll s.stages.digitBytes with
  | ok digits => exact ⟨_, rfl, .setStages s fun hs => { hs with digits := digitAt_le_nine_of_recogniseAll h }⟩
  | error e => exact ⟨_, rfl, .raise s e⟩

theorem execDecSignNeg_stageEffect (f : Frame) (s : State) : ∃ t, execDecSignNeg f s = .next t ∧ StageEffect s t := by
  unfold execDecSignNeg
  split_ifs
  · exact ⟨_, rfl, .setStages s fun hs => { hs with }⟩
  · exact ⟨_, rfl, .refl s⟩

/-- Every operation that writes no register completes, in every state, with a stage effect (R100, R170). -/
theorem exec_stageEffect (i : Instr) (s : State) (h : writesRegisters i = false) :
    ∃ t, exec i s = .next t ∧ StageEffect s t := by
  cases i with
  | synReset | synNostep _ | synIdle | synClose | synLock | synShift _ | synEmit _ | synFill _ | pipe _ _ _ _ => cases h
  | digRecog d => exact execDigRecog_stageEffect d s
  | dig0 d | dig1 d | dig2 d | dig3 d | dig4 d | dig5 d | dig6 d | dig7 d | dig8 d | dig9 d =>
    exact ⟨_, rfl, .recogniseCase d _ s⟩
  | digInvalid d => exact ⟨_, rfl, .recogniseInvalid d s⟩
  | decValidate len f => exact execDecValidate_stageEffect len f s
  | decValidatePass len f => exact execDecValidatePass_stageEffect len f s
  | decValidateFail len f => exact execDecValidateFail_stageEffect len f s
  | decDigits => exact execDecDigits_stageEffect s
  | decBcdacc => exact ⟨_, rfl, .setStages s fun hs => { hs with mag := accumulate_le hs.digits }⟩
  | decDpscaleDp0 f | decDpscaleDp1 f | decDpscaleDp2 f => exact ⟨_, rfl, .scaleCase _ _ _ s⟩
  | decSignNeg f => exact execDecSignNeg_stageEffect f s
  | decFlagsUsb f | decFlagsAuto f | decFlagsDc f | decFlagsAc f => exact ⟨_, rfl, .flagCase _ _ s⟩
  | decPrefixNano f | decPrefixMicro f | decPrefixMilli f | decPrefixKilo f | decPrefixMega f =>
    exact ⟨_, rfl, .prefixCase f _ s⟩
  | decBase f => exact ⟨_, rfl, .setStages s fun hs => { hs with base := baseCode_le_eight f }⟩
  | decBaseOhm f | decBasePct f | decBaseFarad f | decBaseDegF f | decBaseDegC f | decBaseAmpere f | decBaseVolt f
  | decBaseHertz f => exact ⟨_, rfl, .baseCase f _ s⟩
  | fmtUnit =>
    exact ⟨_, rfl, .setStages s fun hs =>
      { hs with unitLen := (unitLenOf_toNat s.stages.pfx s.stages.base).1.trans_le
                  (unitLenOf_toNat s.stages.pfx s.stages.base).2 }⟩
  | fmtReading => exact ⟨_, rfl, .emitReading s _⟩
  | decodeFrame len f => exact ⟨_, rfl, .emitResult s _⟩
  | frameUntested f => exact ⟨_, rfl, .refl s⟩
  | decAssemble _ | decSplit _ | decDpscale | decSign | decFlags _ | decPrefix _ | fmtValue | encodeFrame _ =>
    exact ⟨_, rfl, .setStages s fun hs => { hs with }⟩

theorem StageEffect.sameRegisters {s t : State} (h : StageEffect s t) : sameRegisters s t := by
  obtain ⟨_, _, _, rfl⟩ := h.frame
  exact ⟨rfl, rfl, rfl, rfl, rfl⟩

theorem StageEffect.phase {s t : State} (h : StageEffect s t) : t.phase = s.phase := by
  obtain ⟨_, _, _, rfl⟩ := h.frame
  rfl

theorem StageEffect.inbox {s t : State} (h : StageEffect s t) : t.inbox = s.inbox := by
  obtain ⟨_, _, _, rfl⟩ := h.frame
  rfl

/-! ## Every operation, and the step -/

/-- What an operation that completes has done: a Synchronizer operation its effect, PIPE the effect of the operation it
selects and DECODE of an emitted frame (R207), every other operation a stage effect. -/
inductive ExecEffect (s : State) : Instr → State → Prop where
  | synchronizer {i : Instr} {t : State} : SynEffect s i t → ExecEffect s i t
  | pipe (p : Ports) {t : State} : SynEffect (s.startStep p.rst) (tableSelection p s) t →
      ExecEffect s (.pipe p.rst p.valid p.eos p.data) t.decodeEmitted
  | stage {i : Instr} {t : State} : StageEffect s t → ExecEffect s i t

theorem execPipe_effect (p : Ports) {s t : State} (h : execPipe p.rst p.valid p.eos p.data s = .next t) :
    ExecEffect s (.pipe p.rst p.valid p.eos p.data) t := by
  simp only [execPipe, selected_eq_tableSelection] at h
  obtain ⟨u, hrun, hdecode⟩ := andThen_eq_next h
  cases hdecode
  exact .pipe p ((runSyn_eq_next_iff _ _ _).mp hrun)

/-- Every operation that completes has its effect: the one case split over the operations that later proofs need. -/
theorem exec_effect {i : Instr} {s t : State} (h : exec i s = .next t) : ExecEffect s i t := by
  cases hwrites : writesRegisters i with
  | false =>
    obtain ⟨u, hu, heffect⟩ := exec_stageEffect i s hwrites
    cases hu.symm.trans h
    exact .stage heffect
  | true =>
    cases i with
    | pipe rst valid eos data => exact execPipe_effect ⟨rst, valid, eos, data⟩ h
    | synReset | synNostep _ | synIdle | synClose | synLock | synShift _ | synEmit _ | synFill _ =>
      exact .synchronizer ((runSyn_eq_next_iff _ _ _).mp h)
    | _ => cases hwrites

theorem ExecEffect.inbox {s t : State} {i : Instr} (h : ExecEffect s i t) : t.inbox = s.inbox := by
  cases h with
  | synchronizer hsyn => exact hsyn.inbox
  | pipe p hsyn => rw [State.decodeEmitted_inbox, hsyn.inbox, State.startStep_inbox]
  | stage hstage => exact hstage.inbox

/-- A step that completes decodes its input, completes that operation on the state with its input taken and its strobes
at 0, and then answers an emitted frame and a presented DFRAME. -/
theorem step_effect {s t : State} (h : step s = .next t) :
    ∃ i u, decode s.fetch = .ok i ∧ ExecEffect (s.popInbox.startStep i.rst) i u ∧
      t = u.decodeEmitted.decodeAlone s.dframe := by
  cases hdecode : decode s.fetch with
  | error r => simp [step, hdecode] at h
  | ok i =>
    rw [Proofs.stepExecutesTheDecodedOperation s i hdecode] at h
    obtain ⟨u, hexec, hfinish⟩ := andThen_eq_next h
    cases hfinish
    exact ⟨i, u, rfl, exec_effect hexec, rfl⟩

/-- A step takes the first input of the list and leaves the rest (R303). -/
theorem step_inbox {s t : State} (h : step s = .next t) : t.inbox = s.inbox.drop 1 := by
  obtain ⟨i, u, -, heffect, rfl⟩ := step_effect h
  rw [State.decodeAlone_inbox, State.decodeEmitted_inbox, heffect.inbox]
  rfl

/-- A step on input signals runs the table's operation (R101, R207, R213). -/
theorem step_of_ports {s : State} {p : Ports} {d : Option (BitVec 4 × Frame)} (h : s.input = .ports p d) :
    step s = andThen (runSyn (tableSelection p s) (s.popInbox.startStep p.rst)) (finishStep d) := by
  have hfetch : decode s.fetch = .ok (tableSelection p s) := by
    simp only [State.fetch, h]
    exact selected_eq_tableSelection p s
  have hdframe : s.dframe = d := by simp only [State.dframe, h]
  rw [Proofs.stepExecutesTheDecodedOperation s _ hfetch, hdframe, exec_tableSelection, tableSelection_rst]

/-- A standalone answer leaves the pipeline's error report as it is (R213). -/
@[simp] theorem State.decodeAlone_out_error (s : State) (d : Option (BitVec 4 × Frame)) :
    (s.decodeAlone d).out.error = s.out.error := by
  obtain _ | ⟨len, f⟩ := d
  · rfl
  · obtain ⟨_, _, _, h⟩ := (StageEffect.emitResult s (decodeDframe len f)).frame
    exact congrArg (·.out.error) h

/-! ## Runs -/

theorem run_succ_of_next {s t : State} (h : step s = .next t) (n : Nat) : run (n + 1) s = t :: run n t := by
  rw [run, h]

theorem run_succ_of_stop {s : State} (h : ∀ t, step s ≠ .next t) (n : Nat) : run (n + 1) s = [] := by
  rw [run]
  cases hstep : step s with
  | next t => exact absurd hstep (h t)
  | fault r => rfl
  | refused r => rfl

end Sys2Proof.Machine
end

section
/-! PROOFS. The invariant `Inv`: at reset and over every step. It is split into its part on the registers, which only a
Synchronizer operation can change, and its part on the stage results, which only the other operations can change. -/

namespace Sys2Proof.Machine

/-- The part of `Inv` on the registers: (a) of R37, and of (b) the window and the marker bytes. -/
structure RegistersInv (s : State) : Prop where
  hunt : s.phase = .hunt → s.cnt = 0
  payload : s.phase = .payload → s.win1 = 0xA5 ∧ s.win0 = 0xA5 ∧ s.fbuf[0] = 0xA5 ∧ s.fbuf[1] = 0xA5

/-- `Inv` is its part on the registers and its part on the stage results. -/
theorem inv_iff (s : State) : Inv s ↔ RegistersInv s ∧ s.stages.InRange := by
  constructor
  · rintro ⟨hhunt, hpayload, ⟨h3, h2, h1, h0⟩, hrecog, hmag, hbase, hunit⟩
    refine ⟨⟨hhunt, hpayload⟩, ⟨fun n hn => ?_, hrecog, hmag, hbase, hunit⟩⟩
    interval_cases n
    · exact h0
    · exact h1
    · exact h2
    · exact h3
  · rintro ⟨⟨hhunt, hpayload⟩, hr⟩
    exact ⟨hhunt, hpayload, ⟨hr.digits 3 (by decide), hr.digits 2 (by decide), hr.digits 1 (by decide),
      hr.digits 0 (by decide)⟩, hr.recog, hr.mag, hr.base, hr.unitLen⟩

theorem RegistersInv.of_sameRegisters {s t : State} (h : sameRegisters s t) (hs : RegistersInv s) : RegistersInv t := by
  obtain ⟨hwin1, hwin0, hphase, hcnt, hfbuf⟩ := h
  constructor
  · rw [← hphase, ← hcnt]
    exact hs.hunt
  · rw [← hphase, ← hwin1, ← hwin0, ← hfbuf]
    exact hs.payload

/-- SYN.RESET and SYN.EMIT enter HUNT with `cnt = 0`, SYN.LOCK enters PAYLOAD with the marker in window and buffer, and
SYN.FILL writes behind the marker (R37). -/
theorem SynEffect.registersInv {s t : State} {i : Instr} (h : SynEffect s i t) (hs : RegistersInv s) :
    RegistersInv t := by
  cases h with
  | reset => exact ⟨fun _ => rfl, nofun⟩
  | nostep | idle => exact hs
  | close => exact ⟨by simp, by simp⟩
  | lock _ hwin =>
    exact ⟨nofun, fun _ => ⟨hwin, rfl, by simp [writeFbuf_getElem, sync0], by simp [writeFbuf_getElem, sync1]⟩⟩
  | shift b hphase => exact ⟨hs.hunt, by simp [hphase]⟩
  | emit b => exact ⟨fun _ => rfl, nofun⟩
  | fill b hphase =>
    obtain ⟨hwin1, hwin0, hfbuf0, hfbuf1⟩ := hs.payload hphase
    have hfill := fillIndex_bounds s.cnt
    refine ⟨nofun, fun _ => ⟨hwin1, hwin0, ?_, ?_⟩⟩
    · simpa [writeFbuf_getElem, show fillIndex s.cnt ≠ 0 by omega] using hfbuf0
    · simpa [writeFbuf_getElem, show fillIndex s.cnt ≠ 1 by omega] using hfbuf1

theorem SynEffect.inv {s t : State} {i : Instr} (h : SynEffect s i t) (hs : Inv s) : Inv t := by
  rw [inv_iff] at hs ⊢
  exact ⟨h.registersInv hs.1, h.stages ▸ hs.2⟩

theorem StageEffect.inv {s t : State} (h : StageEffect s t) (hs : Inv s) : Inv t := by
  rw [inv_iff] at hs ⊢
  exact ⟨hs.1.of_sameRegisters h.sameRegisters, h.inRange hs.2⟩

theorem inv_startStep {s : State} (rst : Bool) (hs : Inv s) : Inv (s.startStep rst) := hs

theorem inv_decodeEmitted {s : State} (hs : Inv s) : Inv s.decodeEmitted := by simpa [Inv] using hs

theorem inv_decodeAlone {s : State} (d : Option (BitVec 4 × Frame)) (hs : Inv s) : Inv (s.decodeAlone d) := by
  simpa [Inv] using hs

theorem ExecEffect.inv {s t : State} {i : Instr} (h : ExecEffect s i t) (hs : Inv s) : Inv t := by
  cases h with
  | synchronizer hsyn => exact hsyn.inv hs
  | pipe p hsyn => exact inv_decodeEmitted (hsyn.inv (inv_startStep p.rst hs))
  | stage hstage => exact hstage.inv hs

end Sys2Proof.Machine

namespace Sys2Proof.Proofs

open Sys2Proof.Machine

/-- Settles O47: the machine is reset to HUNT with `cnt = 0` and all stage results 0. -/
theorem resetSatisfiesTheInvariant : Obligations.ResetSatisfiesTheInvariant :=
  (inv_iff State.reset).mpr ⟨⟨fun _ => rfl, nofun⟩, ⟨by decide, nofun, by decide, by decide, by decide⟩⟩

/-- Settles O48: neither taking the input nor answering a frame touches what `Inv` speaks of, and each effect of the
operation between them keeps it. -/
theorem everyStepKeepsTheInvariant : Obligations.EveryStepKeepsTheInvariant := by
  intro s t hs hstep
  obtain ⟨i, u, -, heffect, rfl⟩ := step_effect hstep
  have hstart : Inv (s.popInbox.startStep i.rst) := inv_startStep i.rst (s := s.popInbox) hs
  exact inv_decodeAlone _ (inv_decodeEmitted (heffect.inv hstart))

end Sys2Proof.Proofs
end

section
/-! PROOFS. CLOSED: which operations enter it and which leave it. -/

namespace Sys2Proof.Machine

/-- From CLOSED a Synchronizer operation that completes stays there, or it is the reset (R128, R129). -/
theorem SynEffect.phase_of_closed {s t : State} {i : Instr} (h : SynEffect s i t) (hs : s.phase = .closed) :
    t.phase = .closed ∨ i = .synReset ∧ t.phase = .hunt := by
  cases h with
  | reset => exact .inr ⟨rfl, rfl⟩
  | nostep => exact .inl hs
  | idle hopen => exact absurd hs hopen
  | close hopen => exact absurd hs hopen
  | lock hphase => cases hs.symm.trans hphase
  | shift b hphase => cases hs.symm.trans hphase
  | emit b hphase => cases hs.symm.trans hphase
  | fill b hphase => cases hs.symm.trans hphase

/-- CLOSED is entered by SYN.CLOSE, which reports StreamClosed and emits no frame (R127). -/
theorem SynEffect.reports_streamClosed {s t : State} {i : Instr} (h : SynEffect s i t) (hs : s.phase ≠ .closed)
    (ht : t.phase = .closed) : t.out.error = some .streamClosed ∧ t.out.frame = s.out.frame := by
  cases h with
  | close => exact ⟨rfl, rfl⟩
  | nostep hphase => exact absurd hphase hs
  | idle hopen => exact absurd ht hopen
  | shift b hphase => exact absurd ht hs
  | reset | lock | emit | fill => cases ht

/-- Without a frame, DECODE leaves the pipeline's outputs as they are, so what is reported stays reported. -/
theorem decodeEmitted_reports_streamClosed {s : State} (h : s.out.error = some .streamClosed ∧ s.out.frame = none) :
    s.decodeEmitted.out.error = some .streamClosed ∧ s.decodeEmitted.out.frame = none := by
  rwa [State.decodeEmitted_of_none h.2]

/-- By itself or as PIPE, only a reset leaves CLOSED: PIPE selects SYN.RESET only when its own `rst` is 1 (R101). -/
theorem ExecEffect.phase_of_closed {s t : State} {i : Instr} (h : ExecEffect s i t) (hs : s.phase = .closed) :
    t.phase = .closed ∨ i.rst = true ∧ t.phase = .hunt := by
  cases h with
  | synchronizer hsyn => exact (hsyn.phase_of_closed hs).imp_right fun ⟨hi, ht⟩ => ⟨hi ▸ rfl, ht⟩
  | pipe p hsyn =>
    rw [State.decodeEmitted_phase]
    refine (hsyn.phase_of_closed hs).imp_right fun ⟨hreset, ht⟩ => ⟨?_, ht⟩
    calc (Instr.pipe p.rst p.valid p.eos p.data).rst
      _ = (tableSelection p s).rst := (tableSelection_rst p s).symm
      _ = true := congrArg Instr.rst hreset
  | stage hstage => exact .inl (hstage.phase.trans hs)

theorem ExecEffect.reports_streamClosed {s t : State} {i : Instr} (h : ExecEffect s i t) (hs : s.phase ≠ .closed)
    (hframe : s.out.frame = none) (ht : t.phase = .closed) :
    t.out.error = some .streamClosed ∧ t.out.frame = none := by
  cases h with
  | synchronizer hsyn => exact hframe ▸ hsyn.reports_streamClosed hs ht
  | pipe p hsyn =>
    rw [State.decodeEmitted_phase] at ht
    exact decodeEmitted_reports_streamClosed (hsyn.reports_streamClosed hs ht)
  | stage hstage => exact absurd (hstage.phase.symm.trans ht) hs

end Sys2Proof.Machine

namespace Sys2Proof.Proofs

open Sys2Proof.Machine

/-- Settles O60: of the effects of an operation only that of a reset leaves CLOSED and only that of SYN.CLOSE enters it;
the rest of the step changes neither the phase nor the report. -/
theorem onlyResetLeavesClosed : Obligations.OnlyResetLeavesClosed := by
  intro s t hstep
  obtain ⟨i, u, hdecode, heffect, rfl⟩ := step_effect hstep
  simp only [State.decodeAlone_phase, State.decodeEmitted_phase, State.decodeAlone_out_error]
  refine ⟨fun hclosed => ?_, fun hopen hu => ?_⟩
  · exact (heffect.phase_of_closed hclosed).imp_right fun ⟨hrst, hhunt⟩ => ⟨i, hdecode, hrst, hhunt⟩
  · exact (decodeEmitted_reports_streamClosed (heffect.reports_streamClosed hopen rfl hu)).1

/-- Settles O1: with nothing presented the machine selects SYN.IDLE in HUNT, where `s_ready` is 1. -/
theorem resetStateHuntsWithClearedWindow : Obligations.ResetStateHuntsWithClearedWindow := by
  refine ⟨rfl, rfl, rfl, rfl, rfl, rfl, rfl, rfl, rfl, ?_⟩
  have hidle : tableSelection Ports.idle State.reset = .synIdle := rfl
  have hstep := step_of_ports (s := State.reset) (p := Ports.idle) (d := none) rfl
  rw [hidle] at hstep
  exact ⟨_, hstep, rfl⟩

end Sys2Proof.Proofs
end

section
/-! PROOFS. Noninterference (R37 (d), R208): two states that agree on what their phase makes live, and take the same
input signals, stay so and give equal outputs in every step. -/

namespace Sys2Proof.Machine

/-- Two buffers agree on the bytes below index `n`. -/
def AgreeBelow (n : Nat) (a b : Vector Byte 10) : Prop := ∀ j (_ : j < 10), j < n → a[j] = b[j]

theorem AgreeBelow.zero (a b : Vector Byte 10) : AgreeBelow 0 a b := fun _ _ h => absurd h (Nat.not_lt_zero _)

theorem AgreeBelow.symm {n : Nat} {a b : Vector Byte 10} (h : AgreeBelow n a b) : AgreeBelow n b a :=
  fun j hj hn => (h j hj hn).symm

/-- Writing the next byte into both extends the agreement by it (R60). -/
theorem AgreeBelow.write {n : Nat} {a b : Vector Byte 10} (h : AgreeBelow n a b) (v : Byte) :
    AgreeBelow (n + 1) (writeFbuf a n v) (writeFbuf b n v) := by
  intro j hj hn
  rw [writeFbuf_getElem a n v j hj, writeFbuf_getElem b n v j hj]
  split_ifs with hnj
  · rfl
  · exact h j hj (by omega)

theorem AgreeBelow.eq {a b : Vector Byte 10} (h : AgreeBelow 10 a b) : a = b := Vector.ext fun j hj => h j hj hj

/-- Two states that no further input signals can tell apart: the same phase and inputs to come; in HUNT the same newer
window byte; in PAYLOAD the same counter and the same frame bytes taken so far. -/
structure Indistinguishable (s t : State) : Prop where
  phase : s.phase = t.phase
  inbox : s.inbox = t.inbox
  hunt : s.phase = .hunt → s.win0 = t.win0
  payload : s.phase = .payload → s.cnt = t.cnt ∧ AgreeBelow (fillIndex s.cnt) s.fbuf t.fbuf

namespace Indistinguishable

variable {s t : State} (h : Indistinguishable s t)
include h

theorem symm : Indistinguishable t s where
  phase := h.phase.symm
  inbox := h.inbox.symm
  hunt hp := (h.hunt (h.phase.trans hp)).symm
  payload hp :=
    have ⟨hcnt, hfbuf⟩ := h.payload (h.phase.trans hp)
    ⟨hcnt.symm, hcnt ▸ hfbuf.symm⟩

theorem input : s.input = t.input := by simp only [State.input, h.inbox]

theorem ready (rst : Bool) : s.ready rst = t.ready rst := by simp only [State.ready, State.isClosed, h.phase]

theorem startStep (rst : Bool) : Indistinguishable (s.popInbox.startStep rst) (t.popInbox.startStep rst) where
  phase := h.phase
  inbox := congrArg (List.drop 1) h.inbox
  hunt := h.hunt
  payload := h.payload

theorem startStep_out (rst : Bool) : (s.popInbox.startStep rst).out = (t.popInbox.startStep rst).out := by
  simp [State.ready, State.isClosed, h.phase]

theorem decodeEmitted : Indistinguishable s.decodeEmitted t.decodeEmitted where
  phase := by simpa using h.phase
  inbox := by simpa using h.inbox
  hunt := by simpa using h.hunt
  payload := by simpa using h.payload

theorem decodeAlone (d : Option (BitVec 4 × Frame)) : Indistinguishable (s.decodeAlone d) (t.decodeAlone d) where
  phase := by simpa using h.phase
  inbox := by simpa using h.inbox
  hunt := by simpa using h.hunt
  payload := by simpa using h.payload

/-- The table of R101 reads `win0` in HUNT and `cnt` in PAYLOAD only. -/
theorem tableSelection (p : Ports) : tableSelection p s = tableSelection p t := by
  simp only [Machine.tableSelection, h.ready, ← h.phase]
  cases hphase : s.phase with
  | closed => rfl
  | hunt => rw [h.hunt hphase]
  | payload => rw [(h.payload hphase).1]

end Indistinguishable

theorem emitResult_out_congr {s t : State} (h : s.out = t.out) (c : Channel) (r : Except Err Reading) :
    (s.emitResult c r).out = (t.emitResult c r).out := by
  cases c <;> cases r <;> simp [h]

theorem decodeEmitted_out_congr {s t : State} (h : s.out = t.out) : s.decodeEmitted.out = t.decodeEmitted.out := by
  cases hframe : s.out.frame with
  | none => rw [State.decodeEmitted_of_none hframe, State.decodeEmitted_of_none (h ▸ hframe), h]
  | some f =>
    rw [State.decodeEmitted_of_some hframe, State.decodeEmitted_of_some (h ▸ hframe)]
    exact emitResult_out_congr h _ _

theorem decodeAlone_out_congr {s t : State} (h : s.out = t.out) (d : Option (BitVec 4 × Frame)) :
    (s.decodeAlone d).out = (t.decodeAlone d).out := by
  obtain _ | ⟨len, f⟩ := d
  · exact h
  · exact emitResult_out_congr h _ _

/-- A Synchronizer operation does the same to indistinguishable states. SYN.LOCK overwrites the two bytes that PAYLOAD
then reads, and SYN.EMIT outputs ten bytes that were all written since. -/
theorem SynEffect.simulates {s t s' : State} {i : Instr} (heffect : SynEffect s i s') (h : Indistinguishable s t)
    (hout : s.out = t.out) : ∃ t', SynEffect t i t' ∧ Indistinguishable s' t' ∧ s'.out = t'.out := by
  cases heffect with
  | reset => exact ⟨_, .reset, ⟨rfl, h.inbox, fun _ => rfl, nofun⟩, hout⟩
  | nostep hclosed => exact ⟨_, .nostep (h.phase ▸ hclosed), h, hout⟩
  | idle hopen => exact ⟨_, .idle (h.phase ▸ hopen), h, hout⟩
  | close hopen => exact ⟨_, .close (h.phase ▸ hopen), ⟨by simp, by simp [h.inbox], by simp, by simp⟩, by simp [hout]⟩
  | lock hphase hwin =>
    refine ⟨_, .lock (h.phase ▸ hphase) (h.hunt hphase ▸ hwin), ⟨rfl, h.inbox, nofun, fun _ => ⟨rfl, ?_⟩⟩, hout⟩
    exact ((AgreeBelow.zero _ _).write sync0).write sync1
  | shift b hphase hwin =>
    exact ⟨_, .shift b (h.phase ▸ hphase) (h.hunt hphase ▸ hwin),
      ⟨h.phase, h.inbox, fun _ => rfl, by simp [hphase]⟩, hout⟩
  | emit b hphase hlast =>
    obtain ⟨hcnt, hfbuf⟩ := h.payload hphase
    have hbuf : writeFbuf s.fbuf (fillIndex s.cnt) b = writeFbuf t.fbuf (fillIndex t.cnt) b := by
      rw [← hcnt]
      rw [hlast] at hfbuf ⊢
      exact (hfbuf.write b).eq
    exact ⟨_, .emit b (h.phase ▸ hphase) (hcnt ▸ hlast), ⟨rfl, h.inbox, fun _ => rfl, nofun⟩, by simp [hbuf, hout]⟩
  | fill b hphase hmore =>
    obtain ⟨hcnt, hfbuf⟩ := h.payload hphase
    refine ⟨_, .fill b (h.phase ▸ hphase) (hcnt ▸ hmore), ⟨rfl, h.inbox, nofun, fun _ => ⟨?_, ?_⟩⟩, hout⟩
    · exact congrArg (· + 1) hcnt
    · change AgreeBelow (fillIndex (s.cnt + 1)) (writeFbuf s.fbuf _ b) (writeFbuf t.fbuf _ b)
      rw [fillIndex_succ hmore, ← hcnt]
      exact hfbuf.write b

/-- A step on input signals does the same to indistinguishable states. -/
theorem step_simulates {s t s' : State} {p : Ports} {d : Option (BitVec 4 × Frame)} (h : Indistinguishable s t)
    (hinput : s.input = .ports p d) (hstep : step s = .next s') :
    ∃ t', step t = .next t' ∧ Indistinguishable s' t' ∧ s'.out = t'.out := by
  rw [step_of_ports hinput] at hstep
  rw [step_of_ports (h.input ▸ hinput), ← h.tableSelection]
  obtain ⟨u, hrun, hfinish⟩ := andThen_eq_next hstep
  cases hfinish
  obtain ⟨v, hv, huv, hout⟩ :=
    ((runSyn_eq_next_iff _ _ _).mp hrun).simulates (h.startStep p.rst) (h.startStep_out p.rst)
  rw [(runSyn_eq_next_iff _ _ _).mpr hv]
  exact ⟨_, rfl, huv.decodeEmitted.decodeAlone d, decodeAlone_out_congr (decodeEmitted_out_congr hout) d⟩

/-- A host that presents input signals only, and no operation by itself. -/
def State.PortsOnly (s : State) : Prop := ∀ r ∈ s.inbox, ∃ p d, r = .ports p d

theorem State.PortsOnly.input {s : State} (h : s.PortsOnly) : ∃ p d, s.input = .ports p d := by
  unfold State.input
  split
  · next r _ hinbox => exact h r (by simp [hinbox])
  · exact ⟨_, _, rfl⟩

theorem State.PortsOnly.step {s t : State} (h : s.PortsOnly) (hstep : step s = .next t) : t.PortsOnly :=
  fun r hr => h r (List.mem_of_mem_drop (step_inbox hstep ▸ hr))

/-- Indistinguishable states run to the same outputs: they step together, and where one stops the other stops. -/
theorem run_out_eq (n : Nat) {s t : State} (h : Indistinguishable s t) (hports : s.PortsOnly) :
    (run n s).map (·.out) = (run n t).map (·.out) := by
  induction n generalizing s t with
  | zero => rfl
  | succ n ih =>
    obtain ⟨p, d, hinput⟩ := hports.input
    by_cases hstop : ∀ s', step s ≠ .next s'
    · have hstop' : ∀ t', step t ≠ .next t' := fun t' ht' =>
        have ⟨s', hs', _⟩ := step_simulates h.symm (h.input ▸ hinput) ht'
        hstop s' hs'
      rw [run_succ_of_stop hstop, run_succ_of_stop hstop']
    · push Not at hstop
      obtain ⟨s', hs'⟩ := hstop
      obtain ⟨t', ht', h', hout⟩ := step_simulates h hinput hs'
      rw [run_succ_of_next hs', run_succ_of_next ht', List.map_cons, List.map_cons, hout, ih h' (hports.step hs')]

end Sys2Proof.Machine

namespace Sys2Proof.Proofs

open Sys2Proof.Machine

/-- Settles O51: HUNT states with the same newer window byte are indistinguishable when fed the same symbols. -/
theorem staleStateNeverReachesAnOutput : Obligations.StaleStateNeverReachesAnOutput := by
  intro s t l hs ht hwin
  have hfed : Indistinguishable (s.feed l) (t.feed l) :=
    ⟨hs.trans ht.symm, rfl, fun _ => hwin, fun hpayload => nomatch hs.symm.trans hpayload⟩
  have hports : (s.feed l).PortsOnly := by
    intro r hr
    obtain ⟨x, -, rfl⟩ := List.mem_map.mp hr
    exact ⟨_, _, rfl⟩
  have hrun := run_out_eq l.length hfed hports
  calc outputEvents s l
    _ = ((run l.length (s.feed l)).map (·.out)).flatMap Outputs.events := by rw [List.flatMap_map]; rfl
    _ = ((run l.length (t.feed l)).map (·.out)).flatMap Outputs.events := by rw [hrun]
    _ = outputEvents t l := by rw [List.flatMap_map]; rfl

end Sys2Proof.Proofs
end

section
/-! PROOFS. IDLE symbols (R69): a step that takes no symbol outputs nothing and leaves a state that no further symbols
can tell apart from the one before it; and what a step does to a symbol does not depend on the symbols still to come. -/

namespace Sys2Proof.Machine

/-! ## A step on the first symbol of a list -/

theorem State.feed_portsOnly (s : State) (l : List Symbol) : (s.feed l).PortsOnly := by
  intro r hr
  obtain ⟨x, -, rfl⟩ := List.mem_map.mp hr
  exact ⟨_, _, rfl⟩

/-- A step on a symbol list runs the table's operation for the first symbol, with the others to come (R101, R112). -/
theorem step_feed_cons (s : State) (x : Symbol) (l : List Symbol) :
    step (s.feed (x :: l)) =
      andThen (runSyn (tableSelection x.ports s) ((s.feed l).startStep x.ports.rst)) (finishStep none) :=
  step_of_ports rfl

theorem feed_of_step {s t : State} {x : Symbol} {l : List Symbol} (h : step (s.feed (x :: l)) = .next t) :
    t.feed l = t := by
  have hinbox : t.inbox = l.map fun x => .ports x.ports none := step_inbox h
  rw [State.feed, ← hinbox]

/-- A Synchronizer operation neither reads nor writes the inputs to come. -/
theorem SynEffect.feed {s t : State} {i : Instr} (h : SynEffect s i t) (l : List Symbol) :
    SynEffect (s.feed l) i (t.feed l) := by
  cases h with
  | reset => exact .reset
  | nostep hclosed => exact .nostep hclosed
  | idle hopen => exact .idle hopen
  | close hopen => exact .close hopen
  | lock hphase hwin => exact .lock hphase hwin
  | shift b hphase hwin => exact .shift b hphase hwin
  | emit b hphase hlast => exact .emit b hphase hlast
  | fill b hphase hmore => exact .fill b hphase hmore

theorem State.decodeEmitted_feed (s : State) (l : List Symbol) : (s.feed l).decodeEmitted = s.decodeEmitted.feed l := by
  cases hframe : s.out.frame with
  | none => rw [State.decodeEmitted_of_none hframe, State.decodeEmitted_of_none (s := s.feed l) hframe]
  | some f =>
    rw [State.decodeEmitted_of_some hframe, State.decodeEmitted_of_some (s := s.feed l) hframe]
    cases decodeDframe 10 f <;> rfl

/-- A step does the same to a symbol whatever comes after it. -/
theorem step_feed_cons_of_next {s t : State} {x : Symbol} {l : List Symbol} (h : step (s.feed (x :: l)) = .next t)
    (l' : List Symbol) : step (s.feed (x :: l')) = .next (t.feed l') := by
  rw [step_feed_cons] at h ⊢
  obtain ⟨u, hrun, hfinish⟩ := andThen_eq_next h
  cases hfinish
  have heffect : SynEffect ((s.feed l').startStep x.ports.rst) _ (u.feed l') :=
    ((runSyn_eq_next_iff _ _ _).mp hrun).feed l'
  rw [(runSyn_eq_next_iff _ _ _).mpr heffect, andThen_next]
  exact congrArg Host.Outcome.next (u.decodeEmitted_feed l')

/-! ## The outputs of a symbol list -/

/-- Equal outputs in every step are equal output lists. -/
theorem Indistinguishable.outputEvents_eq {s t : State} {l : List Symbol}
    (h : Indistinguishable (s.feed l) (t.feed l)) : outputEvents s l = outputEvents t l := by
  have hrun := run_out_eq l.length h (s.feed_portsOnly l)
  calc outputEvents s l
    _ = ((run l.length (s.feed l)).map (·.out)).flatMap Outputs.events := by rw [List.flatMap_map]; rfl
    _ = ((run l.length (t.feed l)).map (·.out)).flatMap Outputs.events := by rw [hrun]
    _ = outputEvents t l := by rw [List.flatMap_map]; rfl

theorem outputEvents_cons_of_next {s t : State} {x : Symbol} {l : List Symbol}
    (h : step (s.feed (x :: l)) = .next t) : outputEvents s (x :: l) = t.out.events ++ outputEvents t l := by
  rw [outputEvents, List.length_cons, run_succ_of_next h, List.flatMap_cons, outputEvents, feed_of_step h]

theorem outputEvents_cons_of_stop {s : State} {x : Symbol} {l : List Symbol}
    (h : ∀ t, step (s.feed (x :: l)) ≠ .next t) : outputEvents s (x :: l) = [] := by
  rw [outputEvents, List.length_cons, run_succ_of_stop h, List.flatMap_nil]

/-- Two lists with the same first symbol have the same outputs if what follows does so in every state. -/
theorem outputEvents_cons_congr (s : State) (x : Symbol) {l l' : List Symbol}
    (h : ∀ t, outputEvents t l = outputEvents t l') : outputEvents s (x :: l) = outputEvents s (x :: l') := by
  by_cases hstop : ∀ t, step (s.feed (x :: l)) ≠ .next t
  · have hstop' : ∀ t, step (s.feed (x :: l')) ≠ .next t := fun t ht => hstop _ (step_feed_cons_of_next ht l)
    rw [outputEvents_cons_of_stop hstop, outputEvents_cons_of_stop hstop']
  · push Not at hstop
    obtain ⟨t, ht⟩ := hstop
    calc outputEvents s (x :: l)
      _ = t.out.events ++ outputEvents t l := outputEvents_cons_of_next ht
      _ = t.out.events ++ outputEvents t l' := by rw [h]
      _ = outputEvents s (x :: l') := (outputEvents_cons_of_next (step_feed_cons_of_next ht l')).symm

/-! ## IDLE -/

/-- With no symbol the operation is SYN.IDLE, or in CLOSED SYN.NOSTEP with nothing presented (R101); both complete and
change nothing (R126, R129). -/
theorem synEffect_idle (s : State) : SynEffect s (tableSelection Symbol.idle.ports s) s := by
  cases hphase : s.phase with
  | closed =>
    have hrow : tableSelection Symbol.idle.ports s = .synNostep false := by
      simp [tableSelection, hphase, Symbol.ports]
    exact hrow ▸ .nostep hphase
  | hunt | payload =>
    have hrow : tableSelection Symbol.idle.ports s = .synIdle := by
      simp [tableSelection, hphase, Symbol.ports, Ports.symbol]
    exact hrow ▸ .idle (by simp [hphase])

/-- A step on `IDLE` only begins: it clears the strobes and shows the levels (R82, R86). -/
theorem step_feed_idle (s : State) (l : List Symbol) :
    step (s.feed (.idle :: l)) = .next ((s.feed l).startStep false) := by
  have hrun : runSyn (tableSelection Symbol.idle.ports s) ((s.feed l).startStep false) =
      .next ((s.feed l).startStep false) :=
    (runSyn_eq_next_iff _ _ _).mpr (synEffect_idle ((s.feed l).startStep false))
  rw [step_feed_cons, show Symbol.idle.ports.rst = false from rfl, hrun, andThen_next, finishStep,
    State.decodeEmitted_of_none rfl]
  rfl

/-- An `IDLE` in front of a symbol list changes no output (R69). -/
theorem outputEvents_idle_cons (s : State) (l : List Symbol) : outputEvents s (.idle :: l) = outputEvents s l := by
  have hsame : Indistinguishable (((s.feed l).startStep false).feed l) (s.feed l) :=
    ⟨rfl, rfl, fun _ => rfl, fun _ => ⟨rfl, fun _ _ _ => rfl⟩⟩
  calc outputEvents s (.idle :: l)
    _ = [] ++ outputEvents ((s.feed l).startStep false) l := outputEvents_cons_of_next (step_feed_idle s l)
    _ = outputEvents s l := hsame.outputEvents_eq

end Sys2Proof.Machine

namespace Sys2Proof.Proofs

open Sys2Proof.Machine

/-- Settles O50, by induction on the symbol list: an IDLE is dropped, any other symbol is taken on both sides. -/
theorem idleSymbolsChangeNoOutput : Obligations.IdleSymbolsChangeNoOutput := by
  intro s l
  induction l generalizing s with
  | nil => rfl
  | cons x l ih =>
    cases x with
    | idle => exact (outputEvents_idle_cons s l).trans (ih s)
    | byte b => exact outputEvents_cons_congr s (.byte b) ih
    | eos => exact outputEvents_cons_congr s .eos ih

end Sys2Proof.Proofs
end

section
/-! PROOFS. Which frame bits each part of DECODE reads (R63, R84): frames that agree on the bits of a part agree on the
part. And what the divide-by-1000 marker and the bits of `rd_prefix` of a reading are as frame bits (R64). -/

namespace Sys2Proof.Machine

/-! ## The groups of frame bits -/

/-- The marker bytes `f[0]`, `f[1]` (R171). -/
def markerGroup : Frame := 0x0000000000000000FFFF
/-- The 32 bits of the four digit bytes: `f[2][7:4]` to `f[6][3:0]` (R172). -/
def digitGroup : Frame := 0x0000000FFFFFFFF00000
/-- `f[2][3:0]` (R200). -/
def flagGroup : Frame := 0x000000000000000F0000
/-- `f[6][7]`, `f[3][7]`, `f[7][7]`, `f[7][1]`, `f[7][5]` (R201). -/
def prefixGroup : Frame := 0x0000A280000080000000
/-- `f[6][6]`, `f[7][6]`, `f[7][2]`, `f[8][7:6]`, `f[8][3:1]` (R202). -/
def baseGroup : Frame := 0x00CE4440000000000000

/-- Two frames agree on the given bits. -/
def AgreeOn (bits f g : Frame) : Prop := f &&& bits = g &&& bits

theorem frameByte_and (f g : Frame) (i : Nat) : frameByte (f &&& g) i = frameByte f i &&& frameByte g i :=
  BitVec.extractLsb'_and

theorem frameBit_and (f g : Frame) (i k : Nat) : frameBit (f &&& g) i k = (frameBit f i k && frameBit g i k) := by
  rw [frameBit, frameByte_and, BitVec.getLsbD_and]
  rfl

theorem prefixBit_and (f g : Frame) (j : Fin 5) : prefixBit (f &&& g) j = (prefixBit f j && prefixBit g j) := by
  fin_cases j <;> exact frameBit_and f g _ _

theorem baseBit_and (f g : Frame) (j : Fin 8) : baseBit (f &&& g) j = (baseBit f j && baseBit g j) := by
  fin_cases j <;> exact frameBit_and f g _ _

namespace AgreeOn

variable {bits f g : Frame} (h : AgreeOn bits f g)
include h

theorem mono {fewer : Frame} (hsub : bits &&& fewer = fewer) : AgreeOn fewer f g := by
  calc f &&& fewer
    _ = f &&& bits &&& fewer := by rw [BitVec.and_assoc, hsub]
    _ = g &&& bits &&& fewer := by rw [show f &&& bits = g &&& bits from h]
    _ = g &&& fewer := by rw [BitVec.and_assoc, hsub]

/-- Agreement on the bits `c` of a frame byte. -/
theorem frameByte_and_eq {i : Nat} {c : Byte} (hc : frameByte bits i &&& c = c) :
    frameByte f i &&& c = frameByte g i &&& c := by
  have hbyte : frameByte f i &&& frameByte bits i = frameByte g i &&& frameByte bits i := by
    simpa only [frameByte_and] using congrArg (frameByte · i) h
  calc frameByte f i &&& c
    _ = frameByte f i &&& frameByte bits i &&& c := by rw [BitVec.and_assoc, hc]
    _ = frameByte g i &&& c := by rw [hbyte, BitVec.and_assoc, hc]

theorem frameByte_eq {i : Nat} (hbits : frameByte bits i = 0xFF) : frameByte f i = frameByte g i := by
  have hbyte := congrArg (frameByte · i) h
  simp only [frameByte_and, hbits] at hbyte
  rwa [show (0xFF : Byte) = BitVec.allOnes 8 from rfl, BitVec.and_allOnes, BitVec.and_allOnes] at hbyte

theorem digitByteAt_eq {i : Nat} (hhigh : high (frameByte bits i) = 0xF0)
    (hlow : low (frameByte bits (i + 1)) = 0x0F) : digitByteAt f i = digitByteAt g i :=
  congrArg₂ (· ||| ·) (h.frameByte_and_eq hhigh) (h.frameByte_and_eq hlow)

end AgreeOn

/-! ## What each part of DECODE reads -/

section
variable {f g : Frame}

theorem wellShaped_congr (h : AgreeOn markerGroup f g) (len : BitVec 4) : wellShaped len f = wellShaped len g := by
  have h0 : frameByte f 0 = frameByte g 0 := h.frameByte_eq (by decide)
  have h1 : frameByte f 1 = frameByte g 1 := h.frameByte_eq (by decide)
  rw [wellShaped, h0, h1, wellShaped]

theorem assemble_congr (h : AgreeOn digitGroup f g) : assemble f = assemble g := by
  have h3 : digitByteAt f 2 = digitByteAt g 2 := h.digitByteAt_eq (by decide) (by decide)
  have h2 : digitByteAt f 3 = digitByteAt g 3 := h.digitByteAt_eq (by decide) (by decide)
  have h1 : digitByteAt f 4 = digitByteAt g 4 := h.digitByteAt_eq (by decide) (by decide)
  have h0 : digitByteAt f 5 = digitByteAt g 5 := h.digitByteAt_eq (by decide) (by decide)
  rw [assemble, h3, h2, h1, h0, assemble]

/-- The low nibble has the low four bits (R12). -/
theorem extractLsb'_low (b : Byte) : (low b).extractLsb' 0 4 = b.extractLsb' 0 4 := by
  revert b
  decide

theorem modeFlags_congr (h : AgreeOn flagGroup f g) : modeFlags f = modeFlags g := by
  have hlow : low (frameByte f 2) = low (frameByte g 2) := h.frameByte_and_eq (by decide)
  rw [modeFlags, ← extractLsb'_low, hlow, extractLsb'_low, modeFlags]

theorem prefixMask_congr (h : AgreeOn prefixGroup f g) : prefixMask f = prefixMask g := by
  have hbit (j : Fin 5) : prefixBit f j = prefixBit g j := by
    have hall : ∀ j, prefixBit prefixGroup j = true := by decide
    simpa only [prefixBit_and, hall, Bool.and_true] using congrArg (prefixBit · j) h
  simp only [prefixMask, hbit]

theorem baseCode_congr (h : AgreeOn baseGroup f g) : baseCode f = baseCode g := by
  have hbit (j : Fin 8) : baseBit f j = baseBit g j := by
    have hall : ∀ j, baseBit baseGroup j = true := by decide
    simpa only [baseBit_and, hall, Bool.and_true] using congrArg (baseBit · j) h
  simp only [baseCode, overrideBase, hbit]

/-- DECODE reads the five groups and no other bit (R206). -/
theorem decodeDframe_congr (hmarker : AgreeOn markerGroup f g) (hdigits : AgreeOn digitGroup f g)
    (hflags : AgreeOn flagGroup f g) (hprefix : AgreeOn prefixGroup f g) (hbase : AgreeOn baseGroup f g)
    (len : BitVec 4) : decodeDframe len f = decodeDframe len g := by
  simp only [decodeDframe, readingOf, wellShaped_congr hmarker, assemble_congr hdigits, modeFlags_congr hflags,
    prefixMask_congr hprefix, baseCode_congr hbase]

end

/-! ## What a reading says of its frame -/

/-- A reading comes from a well-shaped frame whose four digits are recognised (R206). -/
theorem decodeDframe_eq_ok {len : BitVec 4} {f : Frame} {r : Reading} (h : decodeDframe len f = .ok r) :
    wellShaped len f = true ∧ ∃ digits, recogniseAll (assemble f) = .ok digits ∧ r = readingOf f digits := by
  unfold decodeDframe at h
  split_ifs at h with hshape
  cases hdigits : recogniseAll (assemble f) with
  | error e => simp [hdigits] at h
  | ok digits =>
    simp only [hdigits, Except.ok.injEq] at h
    exact ⟨hshape, digits, rfl, h.symm⟩

/-- The marker of a digit byte is bit 7 of the frame byte that gives its high nibble (R172, R173). -/
theorem markerOf_digitByteAt (f : Frame) (i : Nat) : markerOf (digitByteAt f i) = frameBit f i 7 := by
  simp [markerOf, digitByteAt, high, low, frameBit]

/-- The bits of `rd_prefix` (R93, R201). -/
theorem prefixMask_getLsbD (f : Frame) (j : Fin 5) : (prefixMask f).getLsbD j = prefixBit f j := by
  simp only [prefixMask, BitVec.getLsbD_append, BitVec.getLsbD_ofBool]
  fin_cases j <;> simp

end Sys2Proof.Machine

namespace Sys2Proof.Proofs

open Sys2Proof.Machine

/-- Settles O56: each of the five groups that DECODE reads is without the 16 untested bits. -/
theorem untestedBitsDoNotAffectDecode : Obligations.UntestedBitsDoNotAffectDecode := by
  intro len f g htested
  have hagree : AgreeOn (~~~untestedMask) f g := htested
  exact decodeDframe_congr (hagree.mono (by decide)) (hagree.mono (by decide)) (hagree.mono (by decide))
    (hagree.mono (by decide)) (hagree.mono (by decide)) len

/-- Settles O57: the marker of Digit2 and the bit of `u` in `rd_prefix` are both `f[3][7]`. -/
theorem microPrefixAndThousandthMarkerCoincide : Obligations.MicroPrefixAndThousandthMarkerCoincide := by
  intro len f r h
  obtain ⟨-, digits, -, rfl⟩ := decodeDframe_eq_ok h
  have hmarker : (dpOf (assemble f)).getLsbD 2 = frameBit f 3 7 := by
    rw [dpOf_two]
    exact markerOf_digitByteAt f 3
  have hprefix : (prefixMask f).getLsbD 1 = frameBit f 3 7 := prefixMask_getLsbD f 1
  exact ⟨hmarker.trans hprefix.symm, hmarker.trans (frameBit_eq f 3 7 (by decide))⟩

end Sys2Proof.Proofs
end

section
/-! PROOFS. The selector words (R103): which row a SYM, DIGIT or DFRAME word selects, and that every operation's own word
selects its row and gives its operands back. -/

namespace Sys2Proof.Machine

open Sys2Proof.Laws

/-! ## The selected row of a word -/

/-- The rows of the SYM format by their priorities, for every code of `phase`: the table of R101, and no row for
`phase = 0b11` (U8). -/
theorem select_symBits (rst : Bool) (phase : BitVec 2) (cnt : BitVec 3) (valid eos : Bool) (data win0 : Byte) :
    select .sym ((symBits rst phase cnt valid eos data win0).setWidth 88) =
      if rst then some .synReset else if phase = 2 then some .synNostep else if phase = 3 then none
      else if !valid then some .synIdle else if eos then some .synClose
      else if phase = 0 then (if data = 0xA5 ∧ win0 = 0xA5 then some .synLock else some .synShift)
      else if cnt = 7 then some .synEmit else some .synFill := by
  simp only [select, Fmt.prioritised, List.find?, applies_synReset, applies_synNostep, applies_synIdle,
    applies_synClose, applies_synLock, applies_synShift, applies_synEmit, applies_synFill]
  have hphase : phase = 0 ∨ phase = 1 ∨ phase = 2 ∨ phase = 3 := by
    revert phase
    decide
  cases rst with
  | true => rfl
  | false =>
    rcases hphase with rfl | rfl | rfl | rfl
    · cases valid with
      | false => rfl
      | true =>
        cases eos with
        | true => rfl
        | false =>
          by_cases hlock : data = 0xA5#8 ∧ win0 = 0xA5#8
          · simp [hlock]
          · have hrow : (data == 0xA5#8 && win0 == 0xA5#8) = false := by grind
            simp [hlock, hrow]
    · cases valid with
      | false => rfl
      | true =>
        cases eos with
        | true => rfl
        | false =>
          by_cases hlast : cnt = 7#3
          · simp [hlast]
          · have hrow : (cnt == 7#3) = false := by simpa using hlast
            simp [hlast, hrow]
    · rfl
    · rfl

/-- The DIGIT rows test the low seven bits only (R103, R152). -/
theorem select_digit_eq_of_patternIs {d : Byte} {p : Pattern} (h : patternIs d p = true) :
    select .digit (d.setWidth 88) = select .digit (p.setWidth 88) := by
  have hrows : ∀ d : Byte, select .digit (d.setWidth 88) = select .digit ((d.extractLsb' 0 7).setWidth 88) := by decide
  rw [hrows, eq_of_beq h]

/-- A digit byte with none of the ten patterns selects DIG.INVALID (R154). -/
theorem select_digit_of_unknown {d : Byte} (h : patternKnown d = false) :
    select .digit (d.setWidth 88) = some .digInvalid := by
  revert d
  decide

theorem selLen_dframeBits (len : BitVec 4) (f : Frame) : selLen (dframeBits len f) = len := by
  refine BitVec.eq_of_getLsbD_eq fun i hi => ?_
  simp only [selLen, dframeBits, BitVec.getLsbD_extractLsb', BitVec.getLsbD_setWidth, BitVec.getLsbD_append]
  grind

theorem selFrame_dframeBits (len : BitVec 4) (f : Frame) : selFrame (dframeBits len f) = f := by
  refine BitVec.eq_of_getLsbD_eq fun i hi => ?_
  simp only [selFrame, dframeBits, BitVec.getLsbD_extractLsb', BitVec.getLsbD_setWidth, BitVec.getLsbD_append]
  grind

/-- The row PASS of DEC.VALIDATE applies only to a list of length 10 that begins with the marker (R171). -/
theorem dframeGood_of_applies {len : BitVec 4} {f : Frame}
    (h : Op.decValidatePass.applies (dframeBits len f) = true) : dframeGood len f = true := by
  have hword : dframeBits len f &&& Op.decValidatePass.mask = Op.decValidatePass.pattern := eq_of_beq h
  have hlen : len &&& BitVec.allOnes 4 = 10#4 := by
    rw [← selLen_dframeBits len f]
    exact BitVec.extractLsb'_and.symm.trans (congrArg selLen hword)
  have hframe : f &&& 0xFFFF#80 = 0xA5A5#80 := by
    rw [← selFrame_dframeBits len f]
    exact BitVec.extractLsb'_and.symm.trans (congrArg selFrame hword)
  have hbyte (k : Nat) (hmask : (0xFFFF#80).extractLsb' k 8 = BitVec.allOnes 8) :
      f.extractLsb' k 8 = (0xA5A5#80).extractLsb' k 8 := by
    rw [← hframe, BitVec.extractLsb'_and, hmask, BitVec.and_allOnes]
  rw [BitVec.and_allOnes] at hlen
  rw [dframeGood, hlen, hbyte 0 rfl, hbyte 8 rfl]
  rfl

theorem select_dframe_of_applies {w : Sel} (h : Op.decValidatePass.applies w = true) :
    select .dframe w = some .decValidatePass := by
  simp [select, Fmt.prioritised, h]

/-- A DFRAME word that is not well shaped selects the row FAIL (R171). -/
theorem select_dframe_of_not_good {len : BitVec 4} {f : Frame} (h : dframeGood len f = false) :
    select .dframe (dframeBits len f) = some .decValidateFail := by
  have hpass : Op.decValidatePass.applies (dframeBits len f) = false :=
    Bool.eq_false_iff.mpr fun happlies => Bool.eq_false_iff.mp h (dframeGood_of_applies happlies)
  have hfail : Op.decValidateFail.applies (dframeBits len f) = true := EncodedRow.applies_of_mask_zero rfl rfl _
  simp [select, Fmt.prioritised, hpass, hfail]

/-! ## The operands of a word -/

theorem selDigit_setWidth (d : Byte) : selDigit (d.setWidth 88) = d := by
  refine BitVec.eq_of_getLsbD_eq fun i hi => ?_
  simp only [selDigit, BitVec.getLsbD_extractLsb', BitVec.getLsbD_setWidth]
  grind

theorem selFrame_setWidth (f : Frame) : selFrame (f.setWidth 88) = f := by
  refine BitVec.eq_of_getLsbD_eq fun i hi => ?_
  simp only [selFrame, BitVec.getLsbD_extractLsb', BitVec.getLsbD_setWidth]
  grind

/-- A decimal digit is the one of its field (R113). -/
theorem digitArg_digitBits (d : Fin 10) : digitArg (digitBits d) = some d := by
  revert d
  decide

/-- The digits stand in ENCODE's word as in `rd_digits` (assumption log 4). -/
theorem encodeArgsBits_digit (a : EncodeArgs) {n : Nat} (hn : n < 4) :
    ((encodeArgsBits a).setWidth 88).extractLsb' (4 * n) 4 =
      digitAt (packDigits (digitBits a.d3) (digitBits a.d2) (digitBits a.d1) (digitBits a.d0)) n := by
  refine BitVec.eq_of_getLsbD_eq fun i hi => ?_
  simp only [encodeArgsBits, digitAt, packDigits, BitVec.getLsbD_extractLsb', BitVec.getLsbD_setWidth,
    BitVec.getLsbD_append]
  grind

/-- ENCODE's word gives its arguments back (assumption log 4). -/
theorem encodeArgs_encodeArgsBits (a : EncodeArgs) : encodeArgs ((encodeArgsBits a).setWidth 88) = some a := by
  have h3 := (encodeArgsBits_digit a (n := 3) (by decide)).trans (digitAt_packDigits_three ..)
  have h2 := (encodeArgsBits_digit a (n := 2) (by decide)).trans (digitAt_packDigits_two ..)
  have h1 := (encodeArgsBits_digit a (n := 1) (by decide)).trans (digitAt_packDigits_one ..)
  have h0 := (encodeArgsBits_digit a (n := 0) (by decide)).trans (digitAt_packDigits_zero ..)
  simp only [Nat.reduceMul] at h3 h2 h1 h0
  simp only [encodeArgs, h3, h2, h1, h0, digitArg_digitBits]
  simp only [encodeArgsBits, BitVec.getLsbD_setWidth, BitVec.getLsbD_append, BitVec.getLsbD_ofBool]
  rfl

/-- The operands that a row takes from the word of one of its operations are the operation's own. -/
theorem build_bits (i : Instr) : build i.op i.bits = .ok i := by
  cases i with
  | synNostep v => exact congrArg (Except.ok ∘ Instr.synNostep) (selValid_symBits ..)
  | synShift b => exact congrArg (Except.ok ∘ Instr.synShift) (selData_symBits ..)
  | synEmit b => exact congrArg (Except.ok ∘ Instr.synEmit) (selData_symBits ..)
  | synFill b => exact congrArg (Except.ok ∘ Instr.synFill) (selData_symBits ..)
  | pipe rst valid eos data =>
    simp only [Instr.op, Instr.bits, build, selRst_symBits, selValid_symBits, selEos_symBits, selData_symBits]
  | encodeFrame a => simp only [Instr.op, Instr.bits, build, encodeArgs_encodeArgsBits]
  | digRecog d | dig0 d | dig1 d | dig2 d | dig3 d | dig4 d | dig5 d | dig6 d | dig7 d | dig8 d | dig9 d
  | digInvalid d | decSplit d => simp only [Instr.op, Instr.bits, build, selDigit_setWidth]
  | decValidate len f | decValidatePass len f | decValidateFail len f | decodeFrame len f =>
    simp only [Instr.op, Instr.bits, build, selLen_dframeBits, selFrame_dframeBits]
  | synReset | synIdle | synClose | synLock | decDigits | decBcdacc | decDpscale | decSign | fmtUnit | fmtValue
  | fmtReading => rfl
  | _ f => simp only [Instr.op, Instr.bits, build, selFrame_setWidth]

/-! ## Every operation's own word -/

/-- Every row applies to the words of its well-formed operations, and these fit the row's format (R103). -/
theorem encodedRow_statement (i : Instr) : EncodedRow.Statement i :=
  match i with
  | .synReset => EncodedRow.synReset
  | .synNostep valid => EncodedRow.synNostep valid
  | .synIdle => EncodedRow.synIdle
  | .synClose => EncodedRow.synClose
  | .synLock => EncodedRow.synLock
  | .synShift b => EncodedRow.synShift b
  | .synEmit b => EncodedRow.synEmit b
  | .synFill b => EncodedRow.synFill b
  | .digRecog d => EncodedRow.digRecog d
  | .dig0 d => EncodedRow.dig0 d
  | .dig1 d => EncodedRow.dig1 d
  | .dig2 d => EncodedRow.dig2 d
  | .dig3 d => EncodedRow.dig3 d
  | .dig4 d => EncodedRow.dig4 d
  | .dig5 d => EncodedRow.dig5 d
  | .dig6 d => EncodedRow.dig6 d
  | .dig7 d => EncodedRow.dig7 d
  | .dig8 d => EncodedRow.dig8 d
  | .dig9 d => EncodedRow.dig9 d
  | .digInvalid d => EncodedRow.digInvalid d
  | .decValidate len f => EncodedRow.decValidate len f
  | .decValidatePass len f => EncodedRow.decValidatePass len f
  | .decValidateFail len f => EncodedRow.decValidateFail len f
  | .decAssemble f => EncodedRow.decAssemble f
  | .decSplit d => EncodedRow.decSplit d
  | .decDigits => EncodedRow.decDigits
  | .decBcdacc => EncodedRow.decBcdacc
  | .decDpscale => EncodedRow.decDpscale
  | .decDpscaleDp0 f => EncodedRow.decDpscaleDp0 f
  | .decDpscaleDp1 f => EncodedRow.decDpscaleDp1 f
  | .decDpscaleDp2 f => EncodedRow.decDpscaleDp2 f
  | .decSign => EncodedRow.decSign
  | .decSignNeg f => EncodedRow.decSignNeg f
  | .decFlags f => EncodedRow.decFlags f
  | .decFlagsUsb f => EncodedRow.decFlagsUsb f
  | .decFlagsAuto f => EncodedRow.decFlagsAuto f
  | .decFlagsDc f => EncodedRow.decFlagsDc f
  | .decFlagsAc f => EncodedRow.decFlagsAc f
  | .decPrefix f => EncodedRow.decPrefix f
  | .decPrefixNano f => EncodedRow.decPrefixNano f
  | .decPrefixMicro f => EncodedRow.decPrefixMicro f
  | .decPrefixMilli f => EncodedRow.decPrefixMilli f
  | .decPrefixKilo f => EncodedRow.decPrefixKilo f
  | .decPrefixMega f => EncodedRow.decPrefixMega f
  | .decBase f => EncodedRow.decBase f
  | .decBaseOhm f => EncodedRow.decBaseOhm f
  | .decBasePct f => EncodedRow.decBasePct f
  | .decBaseFarad f => EncodedRow.decBaseFarad f
  | .decBaseDegF f => EncodedRow.decBaseDegF f
  | .decBaseDegC f => EncodedRow.decBaseDegC f
  | .decBaseAmpere f => EncodedRow.decBaseAmpere f
  | .decBaseVolt f => EncodedRow.decBaseVolt f
  | .decBaseHertz f => EncodedRow.decBaseHertz f
  | .fmtUnit => EncodedRow.fmtUnit
  | .fmtValue => EncodedRow.fmtValue
  | .fmtReading => EncodedRow.fmtReading
  | .decodeFrame len f => EncodedRow.decodeFrame len f
  | .pipe rst valid eos data => EncodedRow.pipe rst valid eos data
  | .encodeFrame a => EncodedRow.encodeFrame a
  | .frameUntested f => EncodedRow.frameUntested f

/-- A row without a priority holds of every word that it applies to (R103). -/
theorem holds_of_applies {op : Op} {w : Sel} (hprio : op.hasPriority = false) (h : op.applies w = true) :
    op.holds w = true := by
  rwa [Op.holds, hprio, if_neg Bool.false_ne_true]

/-- A row holds of every word that selects it, and that it applies to if it has no priority (R103). -/
theorem holds_of_select {op : Op} {w : Sel} (hprio : op.hasPriority = true) (h : select op.fmt w = some op) :
    op.holds w = true := by
  rw [Op.holds, if_pos hprio, h, beq_self_eq_true]

/-- Every row holds of the words of its well-formed operations: among the rows with a priority it is the one selected. -/
theorem holds_bits (i : Instr) (h : i.wf = true) : i.op.holds i.bits = true := by
  have happlies := (encodedRow_statement i h).1
  cases i with
  | synReset | synNostep _ | synIdle | synClose | synLock | synEmit _ | synFill _ =>
    exact holds_of_select rfl (select_symBits ..)
  | synShift b =>
    have hnolock : ¬(b = 0xA5 ∧ (0 : Byte) = 0xA5) := by simp
    exact holds_of_select rfl ((select_symBits ..).trans (if_neg hnolock))
  | dig0 d | dig1 d | dig2 d | dig3 d | dig4 d | dig5 d | dig6 d | dig7 d | dig8 d | dig9 d =>
    exact holds_of_select rfl (select_digit_eq_of_patternIs h)
  | digInvalid d => exact holds_of_select rfl (select_digit_of_unknown (by simpa [Instr.wf] using h))
  | decValidatePass len f => exact holds_of_select rfl (select_dframe_of_applies happlies)
  | decValidateFail len f => exact holds_of_select rfl (select_dframe_of_not_good (by simpa [Instr.wf] using h))
  | _ => exact holds_of_applies rfl happlies

end Sys2Proof.Machine

namespace Sys2Proof.Proofs

open Sys2Proof.Machine

/-- Settles O46: the row that the encoder names holds of the word it writes, and takes its operands back from it. -/
theorem decodeInvertsTheInstructionEncoder : Obligations.DecodeInvertsTheInstructionEncoder := by
  intro i h
  obtain ⟨-, hfits⟩ := encodedRow_statement i h
  exact (decode_named i.op i.bits hfits (holds_bits i h)).trans (build_bits i)

end Sys2Proof.Proofs
end

section
/-! PROOFS. ENCODE (R113, R114): each part of DECODE, applied to the frame that ENCODE builds, gives back the arguments
that the part carries. -/

namespace Sys2Proof.Machine

/-! ## Nibbles and bits of a byte -/

theorem high_or (a b : Byte) : high (a ||| b) = high a ||| high b := BitVec.and_or_distrib_right

theorem low_or (a b : Byte) : low (a ||| b) = low a ||| low b := BitVec.and_or_distrib_right

theorem high_getElem (b : Byte) {k : Nat} (hk : k < 8) : (high b)[k] = (b[k] && decide (4 ≤ k)) := by
  have hbits : ∀ (k : Nat) (_ : k < 8), (0xF0 : Byte)[k] = decide (4 ≤ k) := by decide
  rw [← hbits k hk]
  exact BitVec.getElem_and hk

theorem low_getElem (b : Byte) {k : Nat} (hk : k < 8) : (low b)[k] = (b[k] && decide (k < 4)) := by
  have hbits : ∀ (k : Nat) (_ : k < 8), (0x0F : Byte)[k] = decide (k < 4) := by decide
  rw [← hbits k hk]
  exact BitVec.getElem_and hk

theorem bitAt_getElem (b : Bool) (k : Nat) {j : Nat} (hj : j < 8) : (bitAt b k)[j] = (b && decide (j = k)) := by
  rw [← BitVec.getLsbD_eq_getElem hj, bitAt, BitVec.getLsbD_shiftLeft, BitVec.getLsbD_setWidth, BitVec.getLsbD_ofBool]
  grind

/-- A byte is its two nibbles (R12). -/
theorem high_or_low (b : Byte) : high b ||| low b = b := by
  revert b
  decide

theorem high_high (b : Byte) : high (high b) = high b := by
  revert b
  decide

theorem low_low (b : Byte) : low (low b) = low b := by
  revert b
  decide

theorem high_low (b : Byte) : high (low b) = 0 := by
  revert b
  decide

theorem low_high (b : Byte) : low (high b) = 0 := by
  revert b
  decide

theorem high_bitAt (b : Bool) {k : Nat} (hk : k < 4) : high (bitAt b k) = 0 := by
  revert b k
  decide

theorem low_bitAt (b : Bool) {k : Nat} (hk : k < 4) : low (bitAt b k) = bitAt b k := by
  revert b k
  decide

theorem low_bitAt_of_ge (b : Bool) {k : Nat} (hk : k < 8) (hge : 4 ≤ k) : low (bitAt b k) = 0 := by
  revert b k
  decide

/-! ## Digit bytes -/

/-- A digit byte is its pattern with the marker above it (R113). -/
theorem encodeDigit_eq (d : Fin 10) (marker : Bool) :
    encodeDigit d marker = (pat d).setWidth 8 ||| (BitVec.ofBool marker).setWidth 8 <<< 7 := by
  revert d marker
  decide

/-- The digit table is the inverse of `PAT` (R152, R160). -/
theorem recognise_encodeDigit (d : Fin 10) (marker : Bool) :
    recognise (patternOf (encodeDigit d marker)) = some (digitBits d) := by
  revert d marker
  decide

theorem markerOf_encodeDigit (d : Fin 10) (marker : Bool) : markerOf (encodeDigit d marker) = marker := by
  revert d marker
  decide

theorem digitBits_toNat (d : Fin 10) : (digitBits d).toNat = d.val := by
  revert d
  decide

/-- N of four decimal digits (R175). -/
theorem accumulate_packDigits (d3 d2 d1 d0 : Fin 10) :
    (accumulate (packDigits (digitBits d3) (digitBits d2) (digitBits d1) (digitBits d0))).toNat =
      d3.val * 1000 + d2.val * 100 + d1.val * 10 + d0.val := by
  rw [accumulate_toNat] <;>
    simp only [digitAt_packDigits_three, digitAt_packDigits_two, digitAt_packDigits_one, digitAt_packDigits_zero,
      digitBits_toNat] <;> omega

/-! ## The frame that ENCODE builds -/

/-- The ten bytes on the bus are the buffer's, in index order (R83). -/
theorem map_frameByte_busOf (b : Vector Byte 10) : (List.range 10).map (frameByte (busOf b)) = b.toList := by
  refine List.ext_getElem (by simp) fun i hi _ => ?_
  have hlt : i < 10 := by simpa using hi
  simp [frameByte_busOf b i hlt]

variable (a : EncodeArgs)

theorem frameByte_buildFrame {i : Nat} (h : i < 10) : frameByte (buildFrame a) i = (encodeBytes a)[i] :=
  frameByte_busOf _ i h

theorem wellShaped_buildFrame : wellShaped 10 (buildFrame a) = true := by
  rw [wellShaped_iff, frameByte_buildFrame a (by decide), frameByte_buildFrame a (by decide)]
  exact ⟨rfl, rfl, rfl⟩

/-- DEC.ASSEMBLE puts the nibbles of each digit byte together again (R113, R172). -/
theorem assemble_buildFrame :
    assemble (buildFrame a) =
      ⟨encodeDigit a.d3 a.neg, encodeDigit a.d2 a.dp2, encodeDigit a.d1 a.dp1, encodeDigit a.d0 a.dp0⟩ := by
  simp [assemble, digitByteAt, frameByte_buildFrame, encodeBytes, high_or, low_or, high_high, low_low, high_low,
    low_high, high_bitAt, low_bitAt_of_ge, high_or_low]

/-- The four digits are recognised (R114). -/
theorem recogniseAll_buildFrame :
    recogniseAll (assemble (buildFrame a)) =
      .ok (packDigits (digitBits a.d3) (digitBits a.d2) (digitBits a.d1) (digitBits a.d0)) := by
  simp only [assemble_buildFrame, recogniseAll, recogniseAt, recognise_encodeDigit]
  rfl

theorem dpOf_buildFrame :
    dpOf (assemble (buildFrame a)) = BitVec.ofBool a.dp2 ++ BitVec.ofBool a.dp1 ++ BitVec.ofBool a.dp0 := by
  simp only [assemble_buildFrame, dpOf, markerOf_encodeDigit]

theorem negOf_buildFrame : negOf (assemble (buildFrame a)) = a.neg := by
  rw [assemble_buildFrame, negOf, markerOf_encodeDigit]

theorem modeFlags_buildFrame :
    modeFlags (buildFrame a) =
      BitVec.ofBool a.ac ++ BitVec.ofBool a.dc ++ BitVec.ofBool a.auto ++ BitVec.ofBool a.usb := by
  have hnibble : ∀ ac dc auto usb : Bool,
      (bitAt ac 3 ||| bitAt dc 2 ||| bitAt auto 1 ||| bitAt usb 0).extractLsb' 0 4 =
        BitVec.ofBool ac ++ BitVec.ofBool dc ++ BitVec.ofBool auto ++ BitVec.ofBool usb := by decide
  have hlow : low (frameByte (buildFrame a) 2) = bitAt a.ac 3 ||| bitAt a.dc 2 ||| bitAt a.auto 1 ||| bitAt a.usb 0 := by
    simp [frameByte_buildFrame, encodeBytes, low_or, low_high, low_bitAt]
  rw [modeFlags, ← extractLsb'_low, hlow, hnibble]

/-- The bits of `rd_prefix` in a built frame: four arguments, and for `u` the divide-by-1000 marker (R113, R289). -/
theorem prefixBit_buildFrame (j : Fin 5) :
    prefixBit (buildFrame a) j = ![a.nano, a.dp2, a.milli, a.kilo, a.mega] j := by
  have hmarker : (encodeDigit a.d2 a.dp2)[7] = a.dp2 := markerOf_encodeDigit _ _
  fin_cases j <;>
    simp [prefixBit, frameBit, frameByte_buildFrame, encodeBytes, high_getElem, low_getElem, bitAt_getElem, hmarker]

theorem prefixMask_buildFrame :
    prefixMask (buildFrame a) = BitVec.ofBool a.mega ++ BitVec.ofBool a.kilo ++ BitVec.ofBool a.milli ++
      BitVec.ofBool a.dp2 ++ BitVec.ofBool a.nano := by
  simp only [prefixMask, prefixBit_buildFrame]
  rfl

/-- The base unit bits are the eight base unit arguments, in the order tested (R113, R202). -/
theorem baseBit_buildFrame (j : Fin 8) :
    baseBit (buildFrame a) j = ![a.ohm, a.pct, a.farad, a.degF, a.degC, a.ampere, a.volt, a.hertz] j := by
  fin_cases j <;> simp [baseBit, frameBit, frameByte_buildFrame, encodeBytes, low_getElem, bitAt_getElem]

theorem baseCode_buildFrame :
    baseCode (buildFrame a) = if a.hertz then 8 else if a.volt then 7 else if a.ampere then 6 else if a.degC then 5
      else if a.degF then 4 else if a.farad then 3 else if a.pct then 2 else if a.ohm then 1 else 0 := by
  simp only [baseCode, overrideBase, baseBit_buildFrame]
  rfl

/-- DECODE of the frame is a reading (R114). -/
theorem decodeDframe_buildFrame :
    decodeDframe 10 (buildFrame a) =
      .ok (readingOf (buildFrame a)
        (packDigits (digitBits a.d3) (digitBits a.d2) (digitBits a.d1) (digitBits a.d0))) := by
  rw [decodeDframe, if_pos (wellShaped_buildFrame a), recogniseAll_buildFrame]

end Sys2Proof.Machine

namespace Sys2Proof.Proofs

open Sys2Proof.Machine

/-- Settles O40: the reading of the built frame, part by part. -/
theorem decodeInvertsEncode : Obligations.DecodeInvertsEncode := by
  intro s a
  refine ⟨buildFrame a, _, rfl, ?_, decodeDframe_buildFrame a, rfl, accumulate_packDigits .., dpOf_buildFrame a,
    negOf_buildFrame a, rfl, modeFlags_buildFrame a, prefixMask_buildFrame a, baseCode_buildFrame a⟩
  rw [buildFrame, map_frameByte_busOf]
  simp only [encodeBytes, encodeDigit_eq]
  rfl

end Sys2Proof.Proofs
end

section
/-! PROOFS. DECODE by its stages (R102, R206) and by its two input forms (R95). -/

namespace Sys2Proof.Machine

/-! ## The hardware form of a byte list -/

theorem frameByte_frameOfList_zero (b : Byte) (l : List Byte) (n : Nat) :
    frameByte (frameOfList (b :: l) (n + 1)) 0 = b := by
  refine BitVec.eq_of_getLsbD_eq fun i hi => ?_
  simp only [frameByte, frameOfList, BitVec.getLsbD_extractLsb', BitVec.getLsbD_or, BitVec.getLsbD_shiftLeft,
    BitVec.getLsbD_setWidth]
  grind

theorem frameByte_frameOfList_succ (b : Byte) (l : List Byte) (n : Nat) {i : Nat} (hi : i < 9) :
    frameByte (frameOfList (b :: l) (n + 1)) (i + 1) = frameByte (frameOfList l n) i := by
  refine BitVec.eq_of_getLsbD_eq fun k hk => ?_
  have hb : b.getLsbD (8 * (i + 1) + k) = false := BitVec.getLsbD_of_ge b _ (by omega)
  simp only [frameByte, frameOfList, BitVec.getLsbD_extractLsb', BitVec.getLsbD_or, BitVec.getLsbD_shiftLeft,
    BitVec.getLsbD_setWidth, hb]
  grind

/-- `d_len` is 10 exactly for a list of ten bytes: 15 stands for every longer length (R95). -/
theorem lenOfList_eq_ten_iff (l : List Byte) : lenOfList l = 10 ↔ l.length = 10 := by
  rw [lenOfList, ← BitVec.toNat_inj, BitVec.toNat_ofNat]
  change min l.length 15 % 16 = 10 ↔ _
  omega

/-- DEC.VALIDATE passes in the hardware form exactly when it passes on the list (R95, R171). -/
theorem wellShaped_hardwareForm (l : List Byte) : wellShaped (lenOfList l) (frameOfList l 10) = wellShapedList l := by
  by_cases hlen : l.length = 10
  · obtain ⟨b0, b1, rest, rfl⟩ : ∃ b0 b1 rest, l = b0 :: b1 :: rest := by
      match l, hlen with
      | b0 :: b1 :: rest, _ => exact ⟨b0, b1, rest, rfl⟩
    have h0 : frameByte (frameOfList (b0 :: b1 :: rest) 10) 0 = b0 := frameByte_frameOfList_zero ..
    have h1 : frameByte (frameOfList (b0 :: b1 :: rest) 10) 1 = b1 :=
      (frameByte_frameOfList_succ b0 _ 9 (by decide)).trans (frameByte_frameOfList_zero ..)
    rw [wellShaped, wellShapedList, (lenOfList_eq_ten_iff _).mpr hlen, h0, h1, hlen]
    simp [frameLen, windowLen, payloadLen]
  · have hlist : wellShapedList l = false := by simp [wellShapedList, frameLen, windowLen, payloadLen, hlen]
    rw [hlist, Bool.eq_false_iff, ne_eq, wellShaped_iff, lenOfList_eq_ten_iff]
    exact fun h => hlen h.1

theorem wellShapedList_length {l : List Byte} (h : wellShapedList l = true) : l.length = 10 := by
  simp only [wellShapedList, Bool.and_eq_true, beq_iff_eq] at h
  obtain ⟨⟨hlen, -⟩, -⟩ := h
  exact hlen

/-! ## The stages in sequence -/

/-- DECODE's errors: MalformedFrame for a DFRAME that is not well shaped, else the report of the digits, which is an
InvalidDigitPattern (R206, R248). -/
theorem decodeDframe_eq_error {len : BitVec 4} {f : Frame} {e : Err} (h : decodeDframe len f = .error e) :
    wellShaped len f = false ∧ e = .malformedFrame ∨
      wellShaped len f = true ∧ recogniseAll (assemble f) = .error e ∧
        ∃ pos d, e = .invalidDigitPattern pos (patternOf d) d := by
  unfold decodeDframe at h
  split_ifs at h with hshape
  · obtain ⟨d3, d2, d1, d0, -, -, -, -, hok⟩ | ⟨pos, d, -, herr⟩ := recogniseAll_cases (assemble f)
    · simp [hok] at h
    · simp only [herr, Except.error.injEq] at h
      exact .inr ⟨hshape, h ▸ herr, pos, d, h.symm⟩
  · exact .inl ⟨Bool.eq_false_iff.mpr hshape, (Except.error.inj h).symm⟩

/-- Run operations one after another, each by itself, up to the first stop (R102). -/
def runInOrder (s : State) (l : List Instr) : Host.Outcome State Fault Refusal :=
  l.foldl (fun o i => andThen o (exec i)) (.next s)

theorem runInOrder_cons {s t : State} {i : Instr} (h : exec i s = .next t) (l : List Instr) :
    runInOrder s (i :: l) = runInOrder t l := by
  rw [runInOrder, List.foldl_cons, andThen_next, h, runInOrder]

theorem runInOrder_append {s t : State} {l : List Instr} (h : runInOrder s l = .next t) (l' : List Instr) :
    runInOrder s (l ++ l') = runInOrder t l' := by
  rw [runInOrder, List.foldl_append]
  exact congrArg (List.foldl _ · l') h

theorem exec_decValidate_of_wellShaped {len : BitVec 4} {f : Frame} (h : wellShaped len f = true) (s : State) :
    exec (.decValidate len f) s = .next (s.setStages { s.stages with valid := true }) :=
  if_pos h

theorem exec_decValidate_of_not_wellShaped {len : BitVec 4} {f : Frame} (h : wellShaped len f = false) (s : State) :
    exec (.decValidate len f) s =
      .next ((s.setStages { s.stages with valid := false }).raise .alone .malformedFrame) :=
  if_neg (Bool.eq_false_iff.mp h)

theorem exec_decDigits_of_ok {s : State} {digits : BitVec 16} (h : recogniseAll s.stages.digitBytes = .ok digits) :
    exec .decDigits s = .next (s.setStages { s.stages with digits := digits }) := by
  rw [exec, execDecDigits, h]

theorem exec_decDigits_of_error {s : State} {e : Err} (h : recogniseAll s.stages.digitBytes = .error e) :
    exec .decDigits s = .next (s.raise .alone e) := by
  rw [exec, execDecDigits, h]

/-- The stages of DECODE before DEC.DIGITS (R102). -/
def stagesToSplit (len : BitVec 4) (f : Frame) : List Instr :=
  [.decValidate len f, .decAssemble f, .decSplit (assemble f).d3, .decSplit (assemble f).d2,
   .decSplit (assemble f).d1, .decSplit (assemble f).d0]

/-- The stages of DECODE after DEC.DIGITS (R102). -/
def stagesFromBcdacc (f : Frame) : List Instr :=
  [.decBcdacc, .decDpscale, .decSign, .decFlags f, .decPrefix f, .decBase f, .fmtUnit, .fmtValue, .fmtReading]

theorem State.setStages_setStages (s : State) (st st' : Stages) : (s.setStages st).setStages st' = s.setStages st' := rfl

/-- On a well-shaped frame the stages before DEC.DIGITS pass and leave the four digit bytes (R171 to R173). -/
theorem runInOrder_stagesToSplit {len : BitVec 4} {f : Frame} (h : wellShaped len f = true) (s : State) :
    ∃ t, runInOrder s (stagesToSplit len f) = .next t ∧ t.stages.digitBytes = assemble f ∧ t.stages.valid = true ∧
      sameRegisters t s := by
  refine ⟨s.setStages { s.stages with
    valid := true, digitBytes := assemble f
    marker := markerOf (assemble f).d0, pattern := patternOf (assemble f).d0 }, ?_, rfl, rfl, rfl, rfl, rfl, rfl, rfl⟩
  rw [stagesToSplit, runInOrder_cons (exec_decValidate_of_wellShaped h s)]
  simp only [runInOrder, List.foldl_cons, List.foldl_nil, andThen_next, exec, execDecAssemble, execDecSplit,
    State.setStages_setStages, State.setStages_stages]

/-- On recognised digits the stages after DEC.DIGITS complete and output the reading of the frame (R175 to R177, R200 to
R205). -/
theorem runInOrder_stagesFromBcdacc {f : Frame} {s : State} (h : s.stages.digitBytes = assemble f) :
    ∃ t, runInOrder s (stagesFromBcdacc f) = .next t ∧ t.out.aReading = some (readingOf f s.stages.digits) ∧
      t.out.aError = none ∧ t.stages.signed = (readingOf f s.stages.digits).value ∧ t.stages.valid = s.stages.valid ∧
      sameRegisters t s := by
  simp only [runInOrder, stagesFromBcdacc, List.foldl_cons, List.foldl_nil, andThen_next, exec, execDecBcdacc,
    execDecDpscale, execDecSign, execDecFlags, execDecPrefix, execDecBase, execFmtUnit, execFmtValue, execFmtReading,
    State.setStages_setStages, State.setStages_stages, h]
  exact ⟨_, rfl, rfl, rfl, rfl, rfl, rfl, rfl, rfl, rfl, rfl⟩

theorem sameRegisters_trans {s t u : State} (hst : sameRegisters s t) (htu : sameRegisters t u) : sameRegisters s u := by
  obtain ⟨hwin1, hwin0, hphase, hcnt, hfbuf⟩ := hst
  obtain ⟨hwin1', hwin0', hphase', hcnt', hfbuf'⟩ := htu
  exact ⟨hwin1.trans hwin1', hwin0.trans hwin0', hphase.trans hphase', hcnt.trans hcnt', hfbuf.trans hfbuf'⟩

end Sys2Proof.Machine

namespace Sys2Proof.Proofs

open Sys2Proof.Machine

/-- Settles O39: both forms pass DEC.VALIDATE together, and then both are DECODE of the same DFRAME. -/
theorem hardwareFormAgreesWithByteLists : Obligations.HardwareFormAgreesWithByteLists := by
  intro l
  have hshape := wellShaped_hardwareForm l
  cases hlist : wellShapedList l with
  | true =>
    have hlen := wellShapedList_length hlist
    refine ⟨?_, fun hne => absurd hlen hne⟩
    rw [decodeList, if_pos hlist, (lenOfList_eq_ten_iff l).mpr hlen]
    rfl
  | false =>
    have hmalformed : decodeList l = .error .malformedFrame := by simp [decodeList, hlist]
    refine ⟨?_, fun _ => hmalformed⟩
    rw [hmalformed, decodeDframe, hshape, hlist]
    rfl

/-- Settles O38: the stages up to DEC.SPLIT leave the digit bytes, DEC.DIGITS recognises them as DECODE does, and the
stages after it compute the reading's fields; an error is that of DEC.VALIDATE or of DEC.DIGITS. -/
theorem stagesInSequenceEqualDecode : Obligations.StagesInSequenceEqualDecode := by
  intro s len f b stagesOf upToDigits rest
  refine ⟨fun r hr => ?_, fun he => ?_, fun e he hne => ?_⟩
  · obtain ⟨hshape, digits, hdigits, rfl⟩ := decodeDframe_eq_ok hr
    obtain ⟨t, ht, hbytes, hvalid, hregs⟩ := runInOrder_stagesToSplit hshape s
    obtain ⟨u, hu, hreading, herror, hsigned, hvalid', hregs'⟩ :=
      runInOrder_stagesFromBcdacc (f := f) (s := t.setStages { t.stages with digits := digits }) hbytes
    refine ⟨u, ?_, hreading, herror, hsigned, hvalid'.trans hvalid, sameRegisters_trans hregs' hregs⟩
    calc stagesOf (upToDigits ++ rest)
      _ = runInOrder s (stagesToSplit len f ++ .decDigits :: stagesFromBcdacc f) := rfl
      _ = runInOrder t (.decDigits :: stagesFromBcdacc f) := runInOrder_append ht _
      _ = runInOrder (t.setStages { t.stages with digits := digits }) (stagesFromBcdacc f) :=
        runInOrder_cons (exec_decDigits_of_ok (hbytes ▸ hdigits)) _
      _ = .next u := hu
  · obtain ⟨hshape, -⟩ | ⟨-, -, _, _, hdigit⟩ := decodeDframe_eq_error he
    · exact ⟨_, exec_decValidate_of_not_wellShaped hshape s, rfl, rfl, rfl, rfl, rfl, rfl, rfl, rfl⟩
    · cases hdigit
  · obtain ⟨-, hmalformed⟩ | ⟨hshape, hdigits, -⟩ := decodeDframe_eq_error he
    · exact absurd hmalformed hne
    · obtain ⟨t, ht, hbytes, hvalid, hregs⟩ := runInOrder_stagesToSplit hshape s
      refine ⟨t.raise .alone e, ?_, rfl, rfl, hvalid, hregs⟩
      calc stagesOf upToDigits
        _ = runInOrder s (stagesToSplit len f ++ [.decDigits]) := rfl
        _ = runInOrder t [.decDigits] := runInOrder_append ht _
        _ = .next (t.raise .alone e) := exec_decDigits_of_error (hbytes ▸ hdigits)

end Sys2Proof.Proofs
end

section
/-! PROOFS. The outputs of a step on input signals: the levels, and the frame, reading and error of each effect of a
Synchronizer operation (R82, R86, R207). -/

namespace Sys2Proof.Machine

/-! ## The levels -/

/-- Two output signals show the same levels. -/
def SameLevels (o o' : Outputs) : Prop := o.sReady = o'.sReady ∧ o.closed = o'.closed

theorem emitResult_sameLevels (s : State) (c : Channel) (r : Except Err Reading) :
    SameLevels (s.emitResult c r).out s.out := by
  cases c <;> cases r <;> exact ⟨rfl, rfl⟩

theorem decodeEmitted_sameLevels (s : State) : SameLevels s.decodeEmitted.out s.out := by
  unfold State.decodeEmitted
  split
  · exact emitResult_sameLevels s _ _
  · exact ⟨rfl, rfl⟩

theorem decodeAlone_sameLevels (s : State) (d : Option (BitVec 4 × Frame)) : SameLevels (s.decodeAlone d).out s.out := by
  obtain _ | ⟨len, f⟩ := d
  · exact ⟨rfl, rfl⟩
  · exact emitResult_sameLevels s _ _

/-- No Synchronizer operation writes a level: they are those of the step's begin (R82, R299). -/
theorem SynEffect.sameLevels {s t : State} {i : Instr} (h : SynEffect s i t) : SameLevels t.out s.out := by
  cases h <;> exact ⟨rfl, rfl⟩

/-! ## The step on input signals -/

/-- A step on input signals that completes: the effect of the table's operation, then the two Decoders (R207, R213). -/
theorem step_effect_of_ports {s t : State} {p : Ports} {d : Option (BitVec 4 × Frame)} (h : s.input = .ports p d)
    (hstep : step s = .next t) :
    ∃ u, SynEffect (s.popInbox.startStep p.rst) (tableSelection p s) u ∧ t = u.decodeEmitted.decodeAlone d := by
  rw [step_of_ports h] at hstep
  obtain ⟨u, hrun, hfinish⟩ := andThen_eq_next hstep
  cases hfinish
  exact ⟨u, (runSyn_eq_next_iff _ _ _).mp hrun, rfl⟩

/-- A standalone answer leaves the pipeline's frame and reading as they are (R213). -/
theorem decodeAlone_out_frame (s : State) (d : Option (BitVec 4 × Frame)) : (s.decodeAlone d).out.frame = s.out.frame := by
  obtain _ | ⟨len, f⟩ := d
  · rfl
  · obtain ⟨_, _, _, h⟩ := (StageEffect.emitResult s (decodeDframe len f)).frame
    exact congrArg (·.out.frame) h

theorem decodeAlone_out_reading (s : State) (d : Option (BitVec 4 × Frame)) :
    (s.decodeAlone d).out.reading = s.out.reading := by
  obtain _ | ⟨len, f⟩ := d
  · rfl
  · obtain ⟨_, _, _, h⟩ := (StageEffect.emitResult s (decodeDframe len f)).frame
    exact congrArg (·.out.reading) h

/-- The table selects SYN.CLOSE exactly when EOS is taken (R101, R127). -/
theorem tableSelection_eq_synClose_iff (p : Ports) (s : State) :
    tableSelection p s = .synClose ↔ p.symbol (s.ready p.rst) = .eos := by
  unfold tableSelection
  by_cases hrst : p.rst = true
  · simp [hrst, Ports.symbol, State.ready]
  · cases hphase : s.phase with
    | closed => simp [hrst, Ports.symbol, State.ready, State.isClosed, hphase]
    | hunt =>
      cases p.symbol (s.ready p.rst) with
      | idle | eos => simp [hrst]
      | byte b =>
        simp only [if_neg hrst]
        split_ifs <;> simp
    | payload =>
      cases p.symbol (s.ready p.rst) with
      | idle | eos => simp [hrst]
      | byte b =>
        simp only [if_neg hrst]
        split_ifs <;> simp

/-! ## What each effect outputs -/

/-- A frame that begins with the marker (R135). -/
def BeginsWithMarker (f : Frame) : Prop := frameByte f 0 = 0xA5 ∧ frameByte f 1 = 0xA5

/-- SYN.EMIT writes behind the marker that stands in the buffer (R125, R37). -/
theorem beginsWithMarker_emitted {s : State} (hs : RegistersInv s) (hphase : s.phase = .payload) (b : Byte) :
    BeginsWithMarker (busOf (writeFbuf s.fbuf (fillIndex s.cnt) b)) := by
  obtain ⟨-, -, hfbuf0, hfbuf1⟩ := hs.payload hphase
  have hfill := fillIndex_bounds s.cnt
  constructor
  · rw [frameByte_busOf _ 0 (by decide), writeFbuf_getElem, if_neg (by omega), hfbuf0]
  · rw [frameByte_busOf _ 1 (by decide), writeFbuf_getElem, if_neg (by omega), hfbuf1]

/-- The outputs of a Synchronizer operation: the report of SYN.CLOSE, the frame of SYN.EMIT, or nothing (R122 to
R129). -/
theorem SynEffect.out_cases {s t : State} {i : Instr} (h : SynEffect s i t) (hs : RegistersInv s) :
    i = .synClose ∧ t.out = { s.out with error := some .streamClosed, reading := none } ∨
    i ≠ .synClose ∧ (t.out = s.out ∨ ∃ f, BeginsWithMarker f ∧ t.out = { s.out with frame := some f }) := by
  cases h with
  | close => exact .inl ⟨rfl, rfl⟩
  | emit b hphase => exact .inr ⟨nofun, .inr ⟨_, beginsWithMarker_emitted hs hphase b, rfl⟩⟩
  | reset | nostep | idle | lock | shift | fill => exact .inr ⟨nofun, .inl rfl⟩

/-- The outputs show exactly one of a reading and an error, and the error is an InvalidDigitPattern (R253). -/
def Outputs.OneDecodeResult (o : Outputs) : Prop :=
  o.reading.isSome ≠ o.error.isSome ∧ o.error ≠ some .malformedFrame ∧ o.error ≠ some .streamClosed

/-- DECODE of a frame that begins with the marker never reports MalformedFrame (R171, R253). -/
theorem emitResult_oneDecodeResult {f : Frame} (hf : BeginsWithMarker f) (s : State) :
    (s.emitResult .pipeline (decodeDframe 10 f)).out.OneDecodeResult := by
  have hshape : wellShaped 10 f = true := (wellShaped_iff 10 f).mpr ⟨rfl, hf⟩
  cases hdecode : decodeDframe 10 f with
  | ok r => exact ⟨Bool.noConfusion, nofun, nofun⟩
  | error e =>
    obtain ⟨hbad, -⟩ | ⟨-, -, pos, d, rfl⟩ := decodeDframe_eq_error hdecode
    · exact absurd hshape (Bool.eq_false_iff.mp hbad)
    · exact ⟨Bool.noConfusion, nofun, nofun⟩

theorem emitResult_pipeline_frame (s : State) (r : Except Err Reading) :
    (s.emitResult .pipeline r).out.frame = s.out.frame := by
  cases r <;> rfl

end Sys2Proof.Machine

namespace Sys2Proof.Proofs

open Sys2Proof.Machine

/-- Settles O11: the masks and priorities of the operation table are the table of R101. -/
theorem selectionFollowsTheTable : Obligations.SelectionFollowsTheTable :=
  selected_eq_tableSelection

/-- Settles O42: such an operation completes with a stage effect, which touches stage results and standalone outputs
only. -/
theorem decoderOperationsCompleteAndWriteNoRegister : Obligations.DecoderOperationsCompleteAndWriteNoRegister := by
  intro i s h
  obtain ⟨t, ht, heffect⟩ := exec_stageEffect i s h
  obtain ⟨_, _, _, rfl⟩ := heffect.frame
  exact ⟨_, ht, ⟨rfl, rfl, rfl, rfl, rfl⟩, rfl, rfl, rfl, rfl, rfl, rfl, rfl⟩

/-- Settles O53: in the step that takes EOS the table selects SYN.CLOSE; of the other operations only SYN.EMIT outputs
anything, a frame with the marker, which DECODE answers in the same step. -/
theorem everyFrameHasExactlyOneResult : Obligations.EveryFrameHasExactlyOneResult := by
  intro s t p d hinv hinput hstep
  obtain ⟨u, heffect, rfl⟩ := step_effect_of_ports hinput hstep
  rw [decodeAlone_out_frame, decodeAlone_out_reading, State.decodeAlone_out_error]
  have heos := tableSelection_eq_synClose_iff p s
  have hregs : RegistersInv (s.popInbox.startStep p.rst) :=
    .of_sameRegisters (s := s) ⟨rfl, rfl, rfl, rfl, rfl⟩ ((inv_iff s).mp hinv).1
  obtain ⟨hclose, hout⟩ | ⟨hother, hout | ⟨f, hmarker, hout⟩⟩ := heffect.out_cases hregs
  · rw [State.decodeEmitted_of_none (by rw [hout]; rfl), hout]
    exact ⟨nofun, fun _ => ⟨rfl, rfl, rfl⟩, fun hne => absurd (heos.mp hclose) hne⟩
  · rw [State.decodeEmitted_of_none (by rw [hout]; rfl), hout]
    exact ⟨nofun, fun heq => absurd (heos.mpr heq) hother, fun _ _ => ⟨rfl, rfl⟩⟩
  · have hframe : u.out.frame = some f := by rw [hout]
    rw [State.decodeEmitted_of_some hframe, emitResult_pipeline_frame, hframe]
    refine ⟨?_, fun heq => absurd (heos.mpr heq) hother, fun _ => nofun⟩
    rintro _ ⟨⟩
    exact ⟨hmarker.1, hmarker.2, emitResult_oneDecodeResult hmarker u⟩

/-- Settles O54: the levels are set when the step begins, and nothing after that writes them. -/
theorem levelsShowThePhaseBeforeTheStep : Obligations.LevelsShowThePhaseBeforeTheStep := by
  intro s t p d hinput hstep
  obtain ⟨u, heffect, rfl⟩ := step_effect_of_ports hinput hstep
  obtain ⟨hready, hclosed⟩ := heffect.sameLevels
  obtain ⟨hready', hclosed'⟩ := decodeEmitted_sameLevels u
  obtain ⟨hready'', hclosed''⟩ := decodeAlone_sameLevels u.decodeEmitted d
  rw [hready'', hready', hready, hclosed'', hclosed', hclosed]
  exact ⟨s.ready_iff p.rst, s.isClosed_iff⟩

/-- Settles O10: R101 selects SYN.NOSTEP in CLOSED, which refuses the symbol; no SYM row applies to `phase = 0b11`. -/
theorem symbolPresentedWhileClosedIsRefused : Obligations.SymbolPresentedWhileClosedIsRefused := by
  refine ⟨fun s eos data hclosed => ⟨?_, ?_, ?_⟩, fun cnt valid eos data win0 => ?_⟩
  · exact Bool.eq_false_iff.mpr fun hready => ((s.ready_iff false).mp hready).2 hclosed
  · simp [selected_eq_tableSelection, tableSelection, hclosed]
  · exact if_pos (s.isClosed_iff.mpr hclosed)
  · rw [decode_select .sym _ (symBits_toNat_lt ..), select_symBits]
    rfl

/-- Settles O12: each operation tests its own condition first. -/
theorem unselectedSynchronizerOperationIsRefused : Obligations.UnselectedSynchronizerOperationIsRefused := by
  intro s b v
  have hcnt : s.cnt ≠ cntLast → s.cnt.toNat < 7 := fun hne => by
    have hne7 : s.cnt.toNat ≠ 7 := fun h7 => hne (BitVec.eq_of_toNat_eq h7)
    omega
  refine ⟨fun hclosed => ?_, fun hopen => ?_, fun hlock => ?_, fun hshift => ?_, fun hfill => ?_, fun hemit => ?_⟩
  · exact ⟨if_pos (s.isClosed_iff.mpr hclosed), if_pos (s.isClosed_iff.mpr hclosed)⟩
  · exact if_neg (s.isClosed_iff.not.mpr hopen)
  · exact if_neg hlock
  · exact if_neg hshift
  · exact if_neg fun ⟨hphase, hne⟩ => hfill ⟨hphase, hcnt hne⟩
  · exact if_neg hemit

/-- Settles O36: the row's meaning is to leave the state as it is. -/
theorem untestedRowChangesNothing : Obligations.UntestedRowChangesNothing := fun _ _ => rfl

/-- Settles O44: the record of each report, and that no report has kind 0. -/
theorem errorRecordsCarryTheSpecsCodes : Obligations.ErrorRecordsCarryTheSpecsCodes := by
  refine ⟨rfl, rfl, fun _ _ _ => rfl, rfl, fun e => ?_⟩
  obtain _ | _ | ⟨pos, pattern, byte⟩ | _ := e
  · simp [errRecordOf]
  · simp [errRecordOf, Err.record]
  · simp [errRecordOf, Err.record]
  · simp [errRecordOf, Err.record]

/-- Settles O45: eight words, each decoded by the operation table. -/
theorem selectorWordsDecodeToTheirRows : Obligations.SelectorWordsDecodeToTheirRows := by
  unfold Obligations.SelectorWordsDecodeToTheirRows
  decide

end Sys2Proof.Proofs
end

section
/-! PROOFS. The rows of the table of R101 and the effects that they select, one rule each (R122 to R129). -/

namespace Sys2Proof.Machine

/-! ## The rows of the table by phase and symbol -/

theorem tableSelection_nothing_presented {s : State} (eos : Bool) (data : Byte) (hopen : s.phase ≠ .closed) :
    tableSelection ⟨false, false, eos, data⟩ s = .synIdle := by
  cases hphase : s.phase with
  | closed => exact absurd hphase hopen
  | hunt | payload => simp [tableSelection, hphase, Ports.symbol]

theorem tableSelection_closed {s : State} (valid eos : Bool) (data : Byte) (hclosed : s.phase = .closed) :
    tableSelection ⟨false, valid, eos, data⟩ s = .synNostep valid := by
  simp [tableSelection, hclosed]

theorem tableSelection_eos {s : State} (data : Byte) (hopen : s.phase ≠ .closed) :
    tableSelection ⟨false, true, true, data⟩ s = .synClose := by
  rw [tableSelection_eq_synClose_iff, Ports.symbol, (s.ready_iff false).mpr ⟨rfl, hopen⟩]
  rfl

theorem tableSelection_byte_hunt {s : State} (b : Byte) (hphase : s.phase = .hunt) :
    tableSelection (Symbol.byte b).ports s = if s.win0 = 0xA5 ∧ b = 0xA5 then .synLock else .synShift b := by
  simp [tableSelection, Symbol.ports, Ports.symbol, State.ready, State.isClosed, hphase]

theorem tableSelection_byte_payload {s : State} (b : Byte) (hphase : s.phase = .payload) :
    tableSelection (Symbol.byte b).ports s = if s.cnt = 7 then .synEmit b else .synFill b := by
  simp [tableSelection, Symbol.ports, Ports.symbol, State.ready, State.isClosed, hphase]

/-! ## The counter -/

theorem cnt_ne_cntLast_iff (cnt : BitVec 3) : cnt ≠ cntLast ↔ cnt.toNat < 7 := by
  have hlast : cnt = cntLast ↔ cnt.toNat = 7 := BitVec.toNat_inj.symm
  have hlt := cnt.isLt
  rw [ne_eq, hlast]
  omega

/-- Below its last value the counter does not wrap (R124). -/
theorem cnt_succ_toNat {cnt : BitVec 3} (h : cnt ≠ cntLast) : (cnt + 1).toNat = cnt.toNat + 1 := by
  have hindex := fillIndex_succ h
  simp only [fillIndex] at hindex
  omega

end Sys2Proof.Machine

namespace Sys2Proof.Proofs

open Sys2Proof.Machine

/-- Settles O2: `rst = 1` is the table's first line, and SYN.RESET has no condition. -/
theorem resetIsAlwaysSelectedAndClearsTheSequencer : Obligations.ResetIsAlwaysSelectedAndClearsTheSequencer :=
  fun s valid eos data =>
    ⟨selected_eq_tableSelection ⟨true, valid, eos, data⟩ s, rfl, _, _, (runSyn_eq_next_iff _ _ _).mpr .reset⟩

/-- Settles O3: the line of HUNT for a byte that does not complete the marker. -/
theorem shiftTakesTheByteIntoTheWindow : Obligations.ShiftTakesTheByteIntoTheWindow := by
  intro s b hphase hmarker
  refine ⟨?_, (runSyn_eq_next_iff _ _ _).mpr (.shift b hphase hmarker)⟩
  rw [selected_eq_tableSelection, tableSelection_byte_hunt b hphase, if_neg hmarker]

/-- Settles O4: the line of HUNT for the byte that completes the marker; the two writes put the marker below index 2. -/
theorem lockStoresTheMarkerAndEntersPayload : Obligations.LockStoresTheMarkerAndEntersPayload := by
  intro s hphase hwin
  have hexec : exec .synLock s = _ := (runSyn_eq_next_iff _ _ _).mpr (.lock hphase hwin)
  refine ⟨?_, writeFbuf (writeFbuf s.fbuf 0 sync0) 1 sync1, ?_, fun i hi => ?_⟩
  · rw [selected_eq_tableSelection, tableSelection_byte_hunt _ hphase, if_pos ⟨hwin, rfl⟩]
  · rw [hexec, hwin]
    rfl
  · rw [writeFbuf_getElem _ _ _ i hi, writeFbuf_getElem _ _ _ i hi]
    obtain rfl | rfl | htwo : i = 0 ∨ i = 1 ∨ 2 ≤ i := by omega
    · rfl
    · rfl
    · rw [if_neg (by omega), if_neg (by omega), if_neg (by omega)]

/-- Settles O5: the line of PAYLOAD before the last byte; the counter does not wrap. -/
theorem fillStoresOnePayloadByte : Obligations.FillStoresOnePayloadByte := by
  intro s b hphase hcnt
  have hmore : s.cnt ≠ cntLast := (cnt_ne_cntLast_iff s.cnt).mpr hcnt
  have hexec : exec (.synFill b) s = _ := (runSyn_eq_next_iff _ _ _).mpr (.fill b hphase hmore)
  refine ⟨?_, writeFbuf s.fbuf (fillIndex s.cnt) b, s.cnt + 1, ?_, cnt_succ_toNat hmore, fun i hi => ?_⟩
  · rw [selected_eq_tableSelection, tableSelection_byte_payload b hphase]
    exact congrArg Except.ok (if_neg hmore)
  · rw [hexec, ← hphase]
    rfl
  · rw [writeFbuf_getElem _ _ _ i hi]
    exact if_congr eq_comm rfl rfl

/-- Settles O6: the line of PAYLOAD for the last byte, whose index is 9; the frame is the bus form of the buffer. -/
theorem emitOutputsTheTenBytesAndClearsTheWindow : Obligations.EmitOutputsTheTenBytesAndClearsTheWindow := by
  intro s b hphase hlast
  have hindex : fillIndex s.cnt = 9 := by
    rw [hlast]
    rfl
  refine ⟨?_, writeFbuf s.fbuf (fillIndex s.cnt) b, busOf (writeFbuf s.fbuf (fillIndex s.cnt) b),
    (runSyn_eq_next_iff _ _ _).mpr (.emit b hphase hlast), fun i hi => ?_, frameByte_busOf _⟩
  · rw [selected_eq_tableSelection, tableSelection_byte_payload b hphase, if_pos hlast]
  · rw [writeFbuf_getElem _ _ _ i hi, hindex]
    exact if_congr eq_comm rfl rfl

/-- Settles O7: the line of the open phases for no symbol. -/
theorem idleChangesNothing : Obligations.IdleChangesNothing := by
  intro s eos data hopen
  refine ⟨?_, (runSyn_eq_next_iff _ _ _).mpr (.idle hopen)⟩
  rw [selected_eq_tableSelection, tableSelection_nothing_presented eos data hopen]

/-- Settles O8: the line of the open phases for EOS. -/
theorem closeReportsStreamClosedAndKeepsTheRest : Obligations.CloseReportsStreamClosedAndKeepsTheRest := by
  intro s data hopen
  refine ⟨?_, (runSyn_eq_next_iff _ _ _).mpr (.close hopen), rfl⟩
  rw [selected_eq_tableSelection, tableSelection_eos data hopen]

/-- Settles O9: the line of CLOSED, with no symbol to refuse. -/
theorem closedWithNothingPresentedChangesNothing : Obligations.ClosedWithNothingPresentedChangesNothing := by
  intro s eos data hclosed
  refine ⟨?_, Bool.eq_false_iff.mpr fun hready => ((s.ready_iff false).mp hready).2 hclosed,
    (runSyn_eq_next_iff _ _ _).mpr (.nostep hclosed)⟩
  rw [selected_eq_tableSelection, tableSelection_closed false eos data hclosed]

end Sys2Proof.Proofs
end

section
/-! PROOFS. The stream function of R136. The machine and `huntOutputs` walk the symbol list together: `InMode` ties the
state to the mode of the function, and every symbol that is taken keeps the tie and gives equal outputs. -/

namespace Sys2Proof.Machine

/-! ## The frame of a full buffer -/

theorem frame_eq_of_frameByte {f g : Frame} (h : ∀ i < 10, frameByte f i = frameByte g i) : f = g := by
  refine BitVec.eq_of_getLsbD_eq fun k hk => ?_
  have hbit := congrArg (·.getLsbD (k % 8)) (h (k / 8) (by omega))
  simp only [frameByte, BitVec.getLsbD_extractLsb', Nat.mod_lt k (by decide : 8 > 0), decide_true, Bool.true_and,
    Nat.div_add_mod] at hbit
  exact hbit

/-- Byte `i` of a frame built from a byte list is the list's byte `i` (R95). -/
theorem frameByte_frameOfList {l : List Byte} {n i : Nat} (hn : n ≤ 10) (hin : i < n) (hil : i < l.length) :
    frameByte (frameOfList l n) i = l[i] := by
  induction l generalizing n i with
  | nil => cases hil
  | cons b l ih =>
    obtain ⟨n, rfl⟩ := Nat.exists_eq_add_one_of_ne_zero (Nat.ne_zero_of_lt hin)
    cases i with
    | zero => exact frameByte_frameOfList_zero b l n
    | succ i =>
      rw [frameByte_frameOfList_succ b l n (by omega)]
      exact ih (by omega) (by omega) (Nat.lt_of_succ_lt_succ hil)

/-- The buffer begins with the bytes of a list. -/
def HoldsBytes (buf : Vector Byte 10) (l : List Byte) : Prop := ∀ i (_ : i < 10) (_ : i < l.length), buf[i] = l[i]

/-- Writing behind the bytes held extends them (R60). -/
theorem HoldsBytes.write {buf : Vector Byte 10} {l : List Byte} (h : HoldsBytes buf l) (b : Byte) :
    HoldsBytes (writeFbuf buf l.length b) (l ++ [b]) := by
  intro i hi hil
  rw [writeFbuf_getElem _ _ _ i hi]
  split_ifs with hlast
  · simp [← hlast]
  · rw [List.length_append, List.length_singleton] at hil
    rw [h i hi (by omega), List.getElem_append_left]

/-- A buffer that holds ten bytes shows them on the bus (R87, R95). -/
theorem HoldsBytes.busOf_eq {buf : Vector Byte 10} {l : List Byte} (h : HoldsBytes buf l) (hlen : l.length = 10) :
    busOf buf = frameOfList l frameLen := by
  refine frame_eq_of_frameByte fun i hi => ?_
  rw [frameByte_busOf _ i hi, h i hi (by omega)]
  exact (frameByte_frameOfList (n := 10) le_rfl hi (by omega)).symm

/-! ## The state as a mode of the stream function -/

/-- The bytes of the frame so far, when the payload so far is `acc` (R136). -/
def takenBytes (acc : List Byte) : List Byte := [sync0, sync1] ++ acc

/-- The state is where the stream function is: in HUNT the newer window byte is the previous one, in PAYLOAD the counter
and the buffer are those of the bytes taken so far (R37, R136). -/
def InMode (s : State) : HuntMode → Prop
  | .hunt prev => s.phase = .hunt ∧ s.win0 = prev
  | .take acc => s.phase = .payload ∧ s.cnt.toNat = acc.length ∧ HoldsBytes s.fbuf (takenBytes acc)

theorem InMode.phase_ne_closed {s : State} {m : HuntMode} (h : InMode s m) : s.phase ≠ .closed := by
  cases m with
  | hunt prev => simp [h.1]
  | take acc => simp [h.1]

theorem InMode.decodeEmitted {s : State} {m : HuntMode} (h : InMode s m) : InMode s.decodeEmitted m := by
  cases m <;> simpa [InMode] using h

/-- The next byte is stored behind the bytes taken so far (R25, R137). -/
theorem fillIndex_eq_length {cnt : BitVec 3} {acc : List Byte} (h : cnt.toNat = acc.length) :
    fillIndex cnt = (takenBytes acc).length := by
  rw [fillIndex, h, takenBytes, List.length_append]
  rfl

theorem takenBytes_append (acc : List Byte) (b : Byte) : takenBytes acc ++ [b] = takenBytes (acc ++ [b]) :=
  List.append_assoc ..

theorem InMode.holdsBytes_fill {s : State} {acc : List Byte} (h : InMode s (.take acc)) (b : Byte) :
    HoldsBytes (writeFbuf s.fbuf (fillIndex s.cnt) b) (takenBytes (acc ++ [b])) := by
  obtain ⟨-, hcnt, hfbuf⟩ := h
  rw [fillIndex_eq_length hcnt, ← takenBytes_append]
  exact hfbuf.write b

theorem InMode.cnt_eq_cntLast_iff {s : State} {acc : List Byte} (h : InMode s (.take acc)) :
    s.cnt = cntLast ↔ acc.length = 7 := by
  obtain ⟨-, hcnt, -⟩ := h
  rw [← hcnt, ← BitVec.toNat_inj]
  rfl

/-! ## What each symbol does and outputs -/

/-- The outputs of a symbol list from the effect of its first symbol. -/
theorem outputEvents_cons_of_effect {s u : State} {x : Symbol} {i : Instr} {l : List Symbol}
    (hrow : tableSelection x.ports s = i) (h : SynEffect ((s.feed l).startStep x.ports.rst) i u) :
    outputEvents s (x :: l) = u.decodeEmitted.out.events ++ outputEvents u.decodeEmitted l := by
  refine outputEvents_cons_of_next ?_
  rw [step_feed_cons, hrow, (runSyn_eq_next_iff _ _ _).mpr h]
  rfl

/-- Without an output the rest of the list follows. -/
theorem outputEvents_cons_of_silent {s u : State} {x : Symbol} {i : Instr} {l : List Symbol}
    (hrow : tableSelection x.ports s = i) (h : SynEffect ((s.feed l).startStep x.ports.rst) i u)
    (hout : u.out = ((s.feed l).startStep x.ports.rst).out) : outputEvents s (x :: l) = outputEvents u l := by
  have hnone : u.out.frame = none := by rw [hout]; rfl
  rw [outputEvents_cons_of_effect hrow h, State.decodeEmitted_of_none hnone, hout]
  rfl

/-- In CLOSED nothing is output any more: IDLE does nothing and every other symbol is refused (R109, R129). -/
theorem outputEvents_of_closed {s : State} (hs : s.phase = .closed) (l : List Symbol) : outputEvents s l = [] := by
  have hrefused (x : Symbol) (l : List Symbol) (hx : x.ports.rst = false ∧ x.ports.valid = true) :
      ∀ t, step (s.feed (x :: l)) ≠ .next t := by
    intro t ht
    have hrow : tableSelection x.ports s = .synNostep true := by simp [tableSelection, hs, hx]
    rw [step_feed_cons, hrow] at ht
    obtain ⟨u, hrun, -⟩ := andThen_eq_next ht
    cases (runSyn_eq_next_iff _ _ _).mp hrun
  induction l with
  | nil => rfl
  | cons x l ih =>
    cases x with
    | idle => exact (outputEvents_idle_cons s l).trans ih
    | byte b => exact outputEvents_cons_of_stop (hrefused (.byte b) l ⟨rfl, rfl⟩)
    | eos => exact outputEvents_cons_of_stop (hrefused .eos l ⟨rfl, rfl⟩)

/-- EOS in an open phase reports StreamClosed, and nothing comes after it (R127). -/
theorem outputEvents_eos_cons {s : State} (hs : s.phase ≠ .closed) (l : List Symbol) :
    outputEvents s (.eos :: l) = [.error .streamClosed] := by
  have hrow : tableSelection Symbol.eos.ports s = .synClose := tableSelection_eos 0 hs
  have heffect : SynEffect ((s.feed l).startStep false) .synClose _ := .close hs
  rw [outputEvents_cons_of_effect hrow heffect, State.decodeEmitted_of_none rfl, outputEvents_of_closed (by simp)]
  rfl

/-- The byte that completes the marker starts a payload (R123). -/
theorem outputEvents_lock {s : State} (hphase : s.phase = .hunt) (hwin : s.win0 = 0xA5) (l : List Symbol) :
    ∃ t, InMode t (.take []) ∧ outputEvents s (.byte 0xA5 :: l) = outputEvents t l := by
  have hrow : tableSelection (Symbol.byte 0xA5).ports s = .synLock := by
    rw [tableSelection_byte_hunt _ hphase, if_pos ⟨hwin, rfl⟩]
  have heffect : SynEffect ((s.feed l).startStep false) .synLock _ := .lock hphase hwin
  refine ⟨_, ?_, outputEvents_cons_of_silent hrow heffect rfl⟩
  have hnil : HoldsBytes s.fbuf [] := fun _ _ h => nomatch h
  exact ⟨rfl, rfl, (hnil.write sync0).write sync1⟩

/-- Any other byte becomes the previous one (R122). -/
theorem outputEvents_shift {s : State} {b : Byte} (hphase : s.phase = .hunt) (hmarker : ¬(s.win0 = 0xA5 ∧ b = 0xA5))
    (l : List Symbol) : ∃ t, InMode t (.hunt b) ∧ outputEvents s (.byte b :: l) = outputEvents t l := by
  have hrow : tableSelection (Symbol.byte b).ports s = .synShift b := by
    rw [tableSelection_byte_hunt _ hphase, if_neg hmarker]
  have heffect : SynEffect ((s.feed l).startStep false) (.synShift b) _ := .shift b hphase hmarker
  refine ⟨_, ?_, outputEvents_cons_of_silent hrow heffect rfl⟩
  exact ⟨hphase, rfl⟩

/-- A payload byte that is not the last is appended to the payload (R124). -/
theorem outputEvents_fill {s : State} {acc : List Byte} (h : InMode s (.take acc)) (hmore : s.cnt ≠ cntLast)
    (b : Byte) (l : List Symbol) :
    ∃ t, InMode t (.take (acc ++ [b])) ∧ outputEvents s (.byte b :: l) = outputEvents t l := by
  have hbytes := h.holdsBytes_fill b
  obtain ⟨hphase, hcnt, -⟩ := h
  have hrow : tableSelection (Symbol.byte b).ports s = .synFill b :=
    (tableSelection_byte_payload b hphase).trans (if_neg hmore)
  have heffect : SynEffect ((s.feed l).startStep false) (.synFill b) _ := .fill b hphase hmore
  refine ⟨_, ?_, outputEvents_cons_of_silent hrow heffect rfl⟩
  refine ⟨rfl, ?_, hbytes⟩
  rw [List.length_append, ← hcnt]
  exact cnt_succ_toNat hmore

/-- The frame of ten bytes taken is well shaped in both input forms of DECODE (R95, R206). -/
theorem decodeList_takenBytes {acc : List Byte} (h : acc.length = 8) :
    decodeList (takenBytes acc) = decodeDframe 10 (frameOfList (takenBytes acc) frameLen) := by
  have hshape : wellShapedList (takenBytes acc) = true := by
    simp [wellShapedList, takenBytes, h, frameLen, windowLen, payloadLen]
  rw [decodeList, if_pos hshape]
  rfl

/-- A step's outputs with a frame and its result by DECODE (R207). -/
theorem events_decodeEmitted {u : State} {f : Frame} (hframe : u.out.frame = some f) :
    u.decodeEmitted.out.events = [.frame f, resultEvent (decodeDframe 10 f)] := by
  rw [State.decodeEmitted_of_some hframe]
  cases decodeDframe 10 f with
  | ok r => simp [Outputs.events, hframe, resultEvent]
  | error e => simp [Outputs.events, hframe, resultEvent]

/-- The eighth payload byte emits the frame with its result and leaves HUNT with the previous byte 0 (R125, R207). -/
theorem outputEvents_emit {s : State} {acc : List Byte} (h : InMode s (.take acc)) (hlast : s.cnt = cntLast) (b : Byte)
    (l : List Symbol) :
    ∃ t, InMode t (.hunt 0x00) ∧ outputEvents s (.byte b :: l) =
      (HuntOutput.frame (takenBytes (acc ++ [b]))).events ++ outputEvents t l := by
  have hbytes := h.holdsBytes_fill b
  obtain ⟨hphase, hcnt, -⟩ := h
  have hlen : (acc ++ [b]).length = 8 := by
    rw [List.length_append, ← hcnt, hlast]
    rfl
  have hrow : tableSelection (Symbol.byte b).ports s = .synEmit b :=
    (tableSelection_byte_payload b hphase).trans (if_pos hlast)
  have hbus := hbytes.busOf_eq (by simp [takenBytes, hlen])
  have heffect : SynEffect ((s.feed l).startStep false) (.synEmit b) _ := .emit b hphase hlast
  refine ⟨_, ?_, (outputEvents_cons_of_effect hrow heffect).trans (congrArg (· ++ _) ?_)⟩
  · exact InMode.decodeEmitted (m := .hunt 0x00) ⟨rfl, rfl⟩
  · rw [HuntOutput.events, decodeList_takenBytes hlen, ← hbus]
    exact events_decodeEmitted rfl

/-! ## The two together -/

/-- From a state in a mode, the outputs of the machine are those of the stream function in that mode, by induction on
the symbol list (R136). -/
theorem outputEvents_eq_huntOutputs {s : State} {m : HuntMode} (h : InMode s m) (l : List Symbol) :
    outputEvents s l = (huntOutputs m l).flatMap HuntOutput.events := by
  induction l generalizing s m with
  | nil => rfl
  | cons x l ih =>
    cases x with
    | idle => rw [outputEvents_idle_cons, ih h, huntOutputs]
    | eos => rw [outputEvents_eos_cons h.phase_ne_closed, huntOutputs]; rfl
    | byte b =>
      cases m with
      | hunt prev =>
        obtain ⟨hphase, rfl⟩ := h
        rw [huntOutputs]
        split_ifs with hmarker
        · obtain ⟨hwin, rfl⟩ := hmarker
          obtain ⟨t, ht, hevents⟩ := outputEvents_lock hphase hwin l
          exact hevents.trans (ih ht)
        · obtain ⟨t, ht, hevents⟩ := outputEvents_shift hphase hmarker l
          exact hevents.trans (ih ht)
      | take acc =>
        rw [huntOutputs]
        split_ifs with hlen
        · obtain ⟨t, ht, hevents⟩ := outputEvents_emit h (h.cnt_eq_cntLast_iff.mpr hlen) b l
          rw [hevents, ih ht, takenBytes, ← List.append_assoc]
          rfl
        · obtain ⟨t, ht, hevents⟩ := outputEvents_fill h (h.cnt_eq_cntLast_iff.not.mpr hlen) b l
          exact hevents.trans (ih ht)

end Sys2Proof.Machine

namespace Sys2Proof.Proofs

open Sys2Proof.Machine

/-- Settles O49: a state in HUNT is where the stream function starts, and the IDLE symbols may be dropped first. -/
theorem machineOutputsEqualTheStreamFunction : Obligations.MachineOutputsEqualTheStreamFunction := by
  intro s l hs
  rw [idleSymbolsChangeNoOutput s l]
  exact outputEvents_eq_huntOutputs (m := .hunt s.win0) ⟨hs, rfl⟩ _

end Sys2Proof.Proofs
end

section
/-! PROOFS. The Digit Recognizer (R152 to R160): what the digit table answers and what each of its rows does, said once,
all through membership in the table. -/

namespace Sys2Proof.Machine

/-! ## The digit table -/

/-- The recogniser returns a digit exactly when the table holds the pattern with that digit (R152). -/
theorem recognise_eq_some_iff {p : Pattern} {n : BitVec 4} : recognise p = some n ↔ (p, n) ∈ lut := by
  constructor
  · intro h
    obtain ⟨row, hfind, rfl⟩ := Option.map_eq_some_iff.mp h
    have hpattern : row.1 = p := eq_of_beq (List.find?_some hfind :)
    exact hpattern ▸ List.mem_of_find?_eq_some hfind
  · have hrows : ∀ row ∈ lut, recognise row.1 = some row.2 := by simp [lut, recognise_eq]
    exact hrows (p, n)

/-- A pattern is invalid exactly when no row of the table is its own (R154). -/
theorem recognise_eq_none_iff {p : Pattern} : recognise p = none ↔ ∀ row ∈ lut, p ≠ row.1 := by
  simp only [recognise, Option.map_eq_none_iff, List.find?_eq_none, beq_iff_eq, ne_comm, ne_eq]

/-- No digit has two patterns (R160). -/
theorem lut_pattern_unique {p q : Pattern} {n : BitVec 4} (hp : (p, n) ∈ lut) (hq : (q, n) ∈ lut) : p = q := by
  have hdigits : (lut.map Prod.snd).Nodup := by decide
  exact congrArg Prod.fst (List.inj_on_of_nodup_map hdigits hp hq rfl)

/-- The digit of a row is returned on the row's pattern alone (R152). -/
theorem recognise_eq_some_iff_of_mem_lut {p q : Pattern} {n : BitVec 4} (hq : (q, n) ∈ lut) :
    recognise p = some n ↔ p = q := by
  rw [recognise_eq_some_iff]
  exact ⟨fun hp => lut_pattern_unique hp hq, fun h => h ▸ hq⟩

/-- `PAT(d)` is the pattern of the row of the digit `d` (R160). -/
theorem pat_mem_lut : ∀ d : Fin 10, (pat d, BitVec.ofNat 4 d.val) ∈ lut := by
  decide

/-- Of the 128 patterns 118 are in no row of the table (R154). -/
theorem countP_invalid_patterns :
    ((List.range 128).countP fun n => (recognise (BitVec.ofNat 7 n)).isNone) = 118 := by
  rfl

/-! ## The operations -/

theorem recogniseAt_of_some {d : Byte} {n : BitVec 4} (h : recognise (patternOf d) = some n) (pos : BitVec 2) :
    recogniseAt pos d = .ok n := by
  rw [recogniseAt, h]

theorem recogniseAt_of_none {d : Byte} (h : recognise (patternOf d) = none) (pos : BitVec 2) :
    recogniseAt pos d = .error (.invalidDigitPattern pos (patternOf d) d) := by
  rw [recogniseAt, h]

theorem exec_digRecog_of_some {d : Byte} {n : BitVec 4} (h : recognise (patternOf d) = some n) (s : State) :
    exec (.digRecog d) s = .next (s.setRecog (some n)) := by
  rw [exec, execDigRecog, h]

theorem exec_digRecog_of_none {d : Byte} (h : recognise (patternOf d) = none) (s : State) :
    exec (.digRecog d) s = .next ((s.setRecog none).raise .alone (aloneError d)) := by
  rw [exec, execDigRecog, h]

/-- A case row of the table applies on its own pattern and there alone (R152). -/
theorem recogniseCase_of_mem_lut {q : Pattern} {n : BitVec 4} (hq : (q, n) ∈ lut) (d : Byte) (s : State) :
    recogniseCase d n s = if patternOf d = q then s.setRecog (some n) else s := by
  simp only [recogniseCase, recognise_eq_some_iff_of_mem_lut hq]

/-- The state after a report of the recogniser called on its own (R159). -/
theorem State.setRecog_none_raise (s : State) (d : Byte) :
    (s.setRecog none).raise .alone (aloneError d) =
      { s with
        stages := { s.stages with recog := none }
        out := { s.out with
          aError := some (.invalidDigitPattern 0 (d.extractLsb' 0 7) ((d.extractLsb' 0 7).setWidth 8))
          aReading := none } } :=
  rfl

end Sys2Proof.Machine

namespace Sys2Proof.Proofs

open Sys2Proof.Machine

/-- Settles O13: a pattern in the table is recognised as its row's digit, and one outside it as none. -/
theorem recognizerReturnsTheDigitOrRaises : Obligations.RecognizerReturnsTheDigitOrRaises := by
  intro s d pos
  refine ⟨fun row hrow hpattern => ?_, fun hinvalid => ?_⟩
  · have hdigit : recognise (patternOf d) = some row.2 := (recognise_eq_some_iff_of_mem_lut hrow).mpr hpattern
    exact ⟨recogniseAt_of_some hdigit pos, exec_digRecog_of_some hdigit s⟩
  · have hnone : recognise (patternOf d) = none := recognise_eq_none_iff.mpr hinvalid
    exact ⟨recogniseAt_of_none hnone pos, State.setRecog_none_raise s d ▸ exec_digRecog_of_none hnone s⟩

/-- Settles O14: each operation is the case row of its digit, whose pattern is the table's. -/
theorem digitCaseRowsReturnTheirDigits : Obligations.DigitCaseRowsReturnTheirDigits := by
  intro s d p result
  have hrow : ∀ {q : Pattern} {n : BitVec 4}, (q, n) ∈ lut → .next (recogniseCase d n s) = result q n :=
    fun hq => congrArg Host.Outcome.next (recogniseCase_of_mem_lut hq d s)
  exact ⟨hrow (by decide), hrow (by decide), hrow (by decide), hrow (by decide), hrow (by decide), hrow (by decide),
    hrow (by decide), hrow (by decide), hrow (by decide), hrow (by decide)⟩

/-- Settles O15: the count, and the row's condition with the report of the recogniser called on its own. -/
theorem invalidPatternsAreExactly118AndRaise : Obligations.InvalidPatternsAreExactly118AndRaise := by
  refine ⟨countP_invalid_patterns, fun s d => ?_⟩
  have hexec : exec (.digInvalid d) s = .next (recogniseInvalid d s) := rfl
  rw [hexec, recogniseInvalid, State.setRecog_none_raise]

/-- Settles O16: the table holds each digit with its `PAT`, and holds it once. -/
theorem recognizerInvertsPat : Obligations.RecognizerInvertsPat :=
  ⟨by decide, fun d _ => recognise_eq_some_iff_of_mem_lut (pat_mem_lut d)⟩

end Sys2Proof.Proofs
end

section
/-! PROOFS. The numeric stages of the Decoder (R171 to R178): what each stage answers, and the ranges of a reading's
fields. -/

namespace Sys2Proof.Machine

/-! ## The operands of the stages -/

/-- DEC.VALIDATE's condition in the bits of the DFRAME (R103, R171). -/
theorem wellShaped_iff_extractLsb' (len : BitVec 4) (f : Frame) :
    wellShaped len f = true ↔ len = 10 ∧ f.extractLsb' 0 8 = 0xA5 ∧ f.extractLsb' 8 8 = 0xA5 :=
  wellShaped_iff len f

/-- The pattern of a digit byte is the byte without its marker (R173). -/
theorem patternOf_eq_setWidth (d : Byte) : patternOf d = (d &&& 0x7F).setWidth 7 := by
  revert d
  decide

/-- The sign marker of a frame is `f[2][7]` (R172, R173). -/
theorem negOf_assemble (f : Frame) : negOf (assemble f) = frameBit f 2 7 := markerOf_digitByteAt f 2

/-- The decimal-point markers of a frame are `f[5][7]`, `f[4][7]` and `f[3][7]` (R172, R173). -/
theorem dpOf_assemble (f : Frame) :
    (dpOf (assemble f)).getLsbD 0 = frameBit f 5 7 ∧ (dpOf (assemble f)).getLsbD 1 = frameBit f 4 7 ∧
      (dpOf (assemble f)).getLsbD 2 = frameBit f 3 7 :=
  ⟨(dpOf_zero _).trans (markerOf_digitByteAt f 5), (dpOf_one _).trans (markerOf_digitByteAt f 4),
    (dpOf_two _).trans (markerOf_digitByteAt f 3)⟩

/-- N of four digits each at most 9 (R175). -/
theorem accumulate_packDigits_toNat {d3 d2 d1 d0 : BitVec 4} (h3 : d3.toNat ≤ 9) (h2 : d2.toNat ≤ 9)
    (h1 : d1.toNat ≤ 9) (h0 : d0.toNat ≤ 9) :
    (accumulate (packDigits d3 d2 d1 d0)).toNat = d3.toNat * 1000 + d2.toNat * 100 + d1.toNat * 10 + d0.toNat := by
  have hsum := accumulate_toNat (packDigits d3 d2 d1 d0)
  simp only [digitAt_packDigits_three, digitAt_packDigits_two, digitAt_packDigits_one, digitAt_packDigits_zero] at hsum
  exact hsum h3 h2 h1 h0

/-- One character for each set bit of the mask (R201). -/
theorem length_maskedChars (mask : BitVec 5) (chars : List Byte) (j : Nat) :
    (maskedChars mask chars j).length = (List.range' j chars.length).countP mask.getLsbD := by
  induction chars generalizing j with
  | nil => rfl
  | cons c t ih =>
    rw [maskedChars, List.length_append, ih, List.length_cons, List.range'_succ, List.countP_cons, Nat.add_comm]
    split_ifs <;> rfl

/-- Length of the unit string: the set bits of the mask and the base token (R203). -/
theorem length_unitString (mask : BitVec 5) (code : BitVec 4) :
    (unitString mask code).length = (List.range 5).countP mask.getLsbD + (baseToken code).length := by
  rw [unitString, List.length_append, prefixString, length_maskedChars, List.range_eq_range']
  rfl

/-! ## The recognition of the four digits -/

section
variable {b : DigitBytes} {d3 d2 d1 d0 : BitVec 4}

theorem recogniseAll_of_some (h3 : recognise (patternOf b.d3) = some d3) (h2 : recognise (patternOf b.d2) = some d2)
    (h1 : recognise (patternOf b.d1) = some d1) (h0 : recognise (patternOf b.d0) = some d0) :
    recogniseAll b = .ok (packDigits d3 d2 d1 d0) := by
  rw [recogniseAll, recogniseAt_of_some h3, recogniseAt_of_some h2, recogniseAt_of_some h1, recogniseAt_of_some h0]
  rfl

theorem recogniseAll_of_none_three (h3 : recognise (patternOf b.d3) = none) :
    recogniseAll b = .error (.invalidDigitPattern 3 (patternOf b.d3) b.d3) := by
  rw [recogniseAll, recogniseAt_of_none h3]
  rfl

theorem recogniseAll_of_none_two (h3 : recognise (patternOf b.d3) = some d3) (h2 : recognise (patternOf b.d2) = none) :
    recogniseAll b = .error (.invalidDigitPattern 2 (patternOf b.d2) b.d2) := by
  rw [recogniseAll, recogniseAt_of_some h3, recogniseAt_of_none h2]
  rfl

theorem recogniseAll_of_none_one (h3 : recognise (patternOf b.d3) = some d3) (h2 : recognise (patternOf b.d2) = some d2)
    (h1 : recognise (patternOf b.d1) = none) :
    recogniseAll b = .error (.invalidDigitPattern 1 (patternOf b.d1) b.d1) := by
  rw [recogniseAll, recogniseAt_of_some h3, recogniseAt_of_some h2, recogniseAt_of_none h1]
  rfl

theorem recogniseAll_of_none_zero (h3 : recognise (patternOf b.d3) = some d3)
    (h2 : recognise (patternOf b.d2) = some d2) (h1 : recognise (patternOf b.d1) = some d1)
    (h0 : recognise (patternOf b.d0) = none) :
    recogniseAll b = .error (.invalidDigitPattern 0 (patternOf b.d0) b.d0) := by
  rw [recogniseAll, recogniseAt_of_some h3, recogniseAt_of_some h2, recogniseAt_of_some h1, recogniseAt_of_none h0]
  rfl

end

/-! ## The stages -/

theorem exec_decValidatePass (len : BitVec 4) (f : Frame) (s : State) :
    exec (.decValidatePass len f) s =
      .next (if wellShaped len f then s.setStages { s.stages with valid := true } else s) :=
  (apply_ite Host.Outcome.next _ _ _).symm

theorem exec_decValidateFail (len : BitVec 4) (f : Frame) (s : State) :
    exec (.decValidateFail len f) s =
      .next (if wellShaped len f then s
        else (s.setStages { s.stages with valid := false }).raise .alone .malformedFrame) :=
  (apply_ite Host.Outcome.next _ _ _).symm

theorem exec_decSplit (d : Byte) (s : State) :
    exec (.decSplit d) s = .next (s.setStages { s.stages with marker := markerOf d, pattern := patternOf d }) := rfl

theorem exec_decBcdacc (s : State) :
    exec .decBcdacc s = .next (s.setStages { s.stages with mag := accumulate s.stages.digits }) := rfl

theorem exec_decDpscale (s : State) :
    exec .decDpscale s =
      .next (s.setStages { s.stages with
        exp := exponentOf (dpOf s.stages.digitBytes), scaled := scale s.stages.mag (dpOf s.stages.digitBytes) }) := rfl

theorem exec_decSignNeg (f : Frame) (s : State) :
    exec (.decSignNeg f) s =
      .next (if frameBit f 2 7 then
        s.setStages { s.stages with neg := true, signed := applySign true s.stages.scaled } else s) :=
  (apply_ite Host.Outcome.next _ _ _).symm

end Sys2Proof.Machine

namespace Sys2Proof.Proofs

open Sys2Proof.Machine

/-- Settles O58: a reading's digits were recognised, so each is at most 9 and N does not wrap; the unit string is one
character for each set bit of the mask, and the base token. -/
theorem readingFieldsStayInRange : Obligations.ReadingFieldsStayInRange := by
  intro len f r h
  obtain ⟨-, digits, hdigits, rfl⟩ := decodeDframe_eq_ok h
  have hnine := digitAt_le_nine_of_recogniseAll hdigits
  obtain ⟨hlen, hlenNine⟩ := unitLenOf_toNat (prefixMask f) (baseCode f)
  exact ⟨hnine,
    accumulate_toNat digits (hnine 3 (by decide)) (hnine 2 (by decide)) (hnine 1 (by decide)) (hnine 0 (by decide)),
    accumulate_le hnine, baseCode_le_eight f, hlen.trans_le hlenNine,
    hlen.trans (length_unitString (prefixMask f) (baseCode f))⟩

/-- Settles O17: the condition is `wellShaped` in the bits of the DFRAME, on which the three operations branch. -/
theorem validatePassesExactlyOnLengthTenAndMarker : Obligations.ValidatePassesExactlyOnLengthTenAndMarker := by
  intro s len f passed failed
  rw [← wellShaped_iff_extractLsb', exec_decValidatePass, exec_decValidateFail]
  constructor
  · intro hshape
    rw [if_pos hshape, if_pos hshape]
    exact ⟨exec_decValidate_of_wellShaped hshape s, rfl, rfl⟩
  · intro hshape
    rw [if_neg hshape, if_neg hshape]
    exact ⟨exec_decValidate_of_not_wellShaped (Bool.eq_false_iff.mpr hshape) s, rfl, rfl⟩

/-- Settles O18: `assemble` is the rule's four formulas, whatever the frame and the state. -/
theorem assembleCombinesAdjacentNibbles : Obligations.AssembleCombinesAdjacentNibbles :=
  fun _ _ => rfl

/-- Settles O19: bit 7 of a digit byte is its marker, which DEC.ASSEMBLE takes from a frame byte's high nibble. -/
theorem splitSeparatesMarkerAndPattern : Obligations.SplitSeparatesMarkerAndPattern := by
  refine ⟨fun s d => ?_, fun f => ?_⟩
  · rw [exec_decSplit, patternOf_eq_setWidth]
    rfl
  · obtain ⟨h0, h1, h2⟩ := dpOf_assemble f
    rw [negOf_assemble, h0, h1, h2]
    exact ⟨frameBit_eq f 2 7 (by decide), frameBit_eq f 3 7 (by decide), frameBit_eq f 4 7 (by decide),
      frameBit_eq f 5 7 (by decide)⟩

/-- Settles O20: one case for each first failing position, and one without a failing position. -/
theorem digitsReportTheFirstInvalidPosition : Obligations.DigitsReportTheFirstInvalidPosition := by
  intro s b report
  cases h3 : recognise (patternOf b.d3) with
  | none => exact exec_decDigits_of_error (recogniseAll_of_none_three h3)
  | some d3 =>
    cases h2 : recognise (patternOf b.d2) with
    | none => exact exec_decDigits_of_error (recogniseAll_of_none_two h3 h2)
    | some d2 =>
      cases h1 : recognise (patternOf b.d1) with
      | none => exact exec_decDigits_of_error (recogniseAll_of_none_one h3 h2 h1)
      | some d1 =>
        cases h0 : recognise (patternOf b.d0) with
        | none => exact exec_decDigits_of_error (recogniseAll_of_none_zero h3 h2 h1 h0)
        | some d0 => exact exec_decDigits_of_ok (recogniseAll_of_some h3 h2 h1 h0)

/-- Settles O21: the weighted sum of four decimal digits fits the 14 bits of N. -/
theorem accumulatorIsTheWeightedSum : Obligations.AccumulatorIsTheWeightedSum := by
  intro s d3 d2 d1 d0 h3 h2 h1 h0 hdigits
  have hsum : (accumulate s.stages.digits).toNat = d3.toNat * 1000 + d2.toNat * 100 + d1.toNat * 10 + d0.toNat := by
    rw [hdigits]
    exact accumulate_packDigits_toNat h3 h2 h1 h0
  exact ⟨accumulate s.stages.digits, exec_decBcdacc s, hsum, by omega⟩

/-- Settles O22: the bits of `dpOf` are the markers of the three digit bytes, and `scale` divides in their order. -/
theorem scaleDividesInTheStatedOrder : Obligations.ScaleDividesInTheStatedOrder := by
  intro s dp0 dp1 dp2 v0 v1 v2 v3
  have h0 : (dpOf s.stages.digitBytes).getLsbD 0 = dp0 := dpOf_zero _
  have h1 : (dpOf s.stages.digitBytes).getLsbD 1 = dp1 := dpOf_one _
  have h2 : (dpOf s.stages.digitBytes).getLsbD 2 = dp2 := dpOf_two _
  have hscale : scale s.stages.mag (dpOf s.stages.digitBytes) = v3 := by
    rw [scale, h0, h1, h2]
    rfl
  refine ⟨exponentOf (dpOf s.stages.digitBytes), ?_, ?_⟩
  · rw [exec_decDpscale, hscale]
    rfl
  · rw [exponentOf_toNat, h0, h1, h2]

/-- Settles O23: each row is one `scaleCase`, at the frame bit of its marker. -/
theorem scaleCaseRowsDivideOnce : Obligations.ScaleCaseRowsDivideOnce := by
  intro s f line
  have hrow (i : Nat) (e : BitVec 3) (k : Nat) :
      .next (scaleCase (frameBit f i 7) e k s) = line (f.getLsbD (8 * i + 7)) e k := by
    rw [frameBit_eq f i 7 (by decide)]
    rfl
  exact ⟨hrow 5 1 10, hrow 4 2 100, hrow 3 3 1000⟩

/-- Settles O24: `fneg` is the flip of the sign bit, and the row's frame bit is `f[2][7]`. -/
theorem signFlipsTheSignBitWhenMarked : Obligations.SignFlipsTheSignBitWhenMarked := by
  intro s f v flipped neg
  refine ⟨rfl, ?_⟩
  rw [exec_decSignNeg, frameBit_eq f 2 7 (by decide)]
  rfl

end Sys2Proof.Proofs
end

section
/-! PROOFS. The value of a reading against its exact value (R181, R182). A correctly rounded word is within `2^-53` of
its rational, relatively, when that is in the normal range; three roundings in a row compound to less than four of these
errors, and stay far above the subnormal range. -/

namespace Sys2Proof.Binary64

open Sys2Proof.Machine

/-! ## The relative error of one rounding -/

/-- Zero, or a magnitude that is no smaller than the smallest normal number. -/
def InNormalRange (x : ℚ) : Prop := x = 0 ∨ (2 : ℚ) ^ (-1022 : ℤ) ≤ |x|

/-- Rounded to an integer in units `u` of a binade, `x` moves by half a unit and at most reaches the binade's upper
end. -/
theorem round_in_units {x u : ℚ} (hu : 0 < u) (hlow : 2 ^ 52 * u ≤ |x|) (hhigh : |x| < 2 ^ 53 * u) :
    |round (x / u)| ≤ 2 ^ 53 ∧ |round (x / u) * u - x| ≤ 1 / 2 ^ 53 * |x| := by
  have hround := abs_sub_round (x / u)
  have hquot : |x / u| < 2 ^ 53 := by rwa [abs_div, abs_of_pos hu, div_lt_iff₀ hu]
  constructor
  · have hlt : |(round (x / u) : ℚ)| < 2 ^ 53 + 1 := by
      have htri := abs_sub_abs_le_abs_sub (round (x / u) : ℚ) (x / u)
      rw [abs_sub_comm] at htri
      linarith
    exact Int.lt_add_one_iff.mp (by exact_mod_cast hlt)
  · calc |round (x / u) * u - x|
      _ = |x / u - round (x / u)| * u := by
        rw [← abs_of_pos hu, ← abs_mul, abs_of_pos hu, abs_sub_comm, sub_mul, div_mul_cancel₀ _ hu.ne']
      _ ≤ 1 / 2 * u := by gcongr
      _ ≤ 1 / 2 ^ 53 * |x| := by linarith

theorem isBinary64Number_mul_two_zpow {z y : ℤ} (hz : |z| ≤ 2 ^ 53) (hy : -1074 ≤ y) :
    IsBinary64Number (z * 2 ^ y) := by
  obtain hlt | heq := hz.lt_or_eq
  · exact ⟨z, y, hlt, hy, rfl⟩
  · have hcarry : (2 : ℚ) ^ (y + 53) = 2 ^ 53 * 2 ^ y := by
      rw [zpow_add₀ two_ne_zero, mul_comm]
      norm_cast
    obtain rfl | rfl := eq_or_eq_neg_of_abs_eq heq
    · exact ⟨1, y + 53, by norm_num, by omega, by rw [hcarry]; push_cast; ring⟩
    · exact ⟨-1, y + 53, by norm_num, by omega, by rw [hcarry]; push_cast; ring⟩

/-- In the normal range some number of the format is within half a unit of the last place. -/
theorem exists_isBinary64Number_near {x : ℚ} (hx : (2 : ℚ) ^ (-1022 : ℤ) ≤ |x|) :
    ∃ v, IsBinary64Number v ∧ |v - x| ≤ 1 / 2 ^ 53 * |x| := by
  have hpos : 0 < |x| := lt_of_lt_of_le (by positivity) hx
  have hlow := Int.zpow_log_le_self one_lt_two hpos
  have hhigh := Int.lt_zpow_succ_log_self one_lt_two |x|
  have hexp : -1022 ≤ Int.log 2 |x| := (Int.zpow_le_iff_le_log one_lt_two hpos).mp hx
  generalize Int.log 2 |x| = e at hlow hhigh hexp
  have hunit : (2 : ℚ) ^ e = 2 ^ 52 * 2 ^ (e - 52) := by
    rw [← zpow_natCast, ← zpow_add₀ two_ne_zero]
    congr 1
    omega
  push_cast at hlow hhigh
  rw [zpow_add_one₀ two_ne_zero, hunit] at hhigh
  obtain ⟨hz, hnear⟩ := round_in_units (x := x) (u := 2 ^ (e - 52)) (by positivity) (hunit ▸ hlow) (by linarith)
  exact ⟨_, isBinary64Number_mul_two_zpow hz (by omega), hnear⟩

theorem isBinary64Number_zero : IsBinary64Number 0 := by
  simpa using isBinary64Number_natCast (n := 0) (by norm_num)

theorem IsRoundingOf.abs_sub_le {r : F64} {x : ℚ} (hr : IsRoundingOf r x) (hx : InNormalRange x) :
    |f64Value r - x| ≤ 1 / 2 ^ 53 * |x| := by
  obtain rfl | hnormal := hx
  · simp [hr.eq_of_isBinary64Number isBinary64Number_zero]
  · obtain ⟨v, hv, hnear⟩ := exists_isBinary64Number_near hnormal
    exact (hr.nearest v hv).trans hnear

/-- A word of normal magnitude is not subnormal. -/
theorem exponent_ne_zero_of_le_abs_f64Value {a : F64} (h : (2 : ℚ) ^ (-1022 : ℤ) ≤ |f64Value a|) :
    a.extractLsb' 52 11 ≠ 0 := by
  intro hexp
  have hfrac : ((a.extractLsb' 0 52).toNat : ℚ) < 2 ^ 52 := by exact_mod_cast (a.extractLsb' 0 52).isLt
  have hvalue : |f64Value a| = (a.extractLsb' 0 52).toNat * 2 ^ (-1074 : ℤ) := by
    rw [f64Value_eq, f64Significand, f64Place, hexp, abs_mul, abs_signOf, one_mul, abs_of_nonneg (by positivity)]
    simp
  have hsplit : (2 : ℚ) ^ (-1022 : ℤ) = 2 ^ 52 * 2 ^ (-1074 : ℤ) := by
    rw [← zpow_natCast, ← zpow_add₀ two_ne_zero]
    rfl
  rw [hvalue, hsplit] at h
  exact absurd (le_of_mul_le_mul_right h (by positivity)) (not_le.mpr hfrac)

/-! ## Roundings in sequence -/

/-- The relative error of `n` roundings, each on the result of the one before. -/
def compoundError (n : Nat) : ℚ := (1 + 1 / 2 ^ 53) ^ n - 1

theorem compoundError_succ (n : Nat) :
    compoundError (n + 1) = 1 / 2 ^ 53 * (1 + compoundError n) + compoundError n := by
  unfold compoundError
  ring

theorem compoundError_mono : Monotone compoundError := fun m n h =>
  sub_le_sub_right (pow_le_pow_right₀ (by norm_num) h) 1

theorem compoundError_three_le : compoundError 3 ≤ 4 / 2 ^ 53 := by norm_num [compoundError]

/-- A finite word within the error of `n` roundings of a rational. -/
structure IsWithin (n : Nat) (r : F64) (x : ℚ) : Prop where
  finite : f64Finite r = true
  error : |f64Value r - x| ≤ compoundError n * |x|

theorem IsWithin.mono {m n : Nat} {r : F64} {x : ℚ} (h : IsWithin m r x) (hmn : m ≤ n) : IsWithin n r x :=
  ⟨h.finite, h.error.trans (mul_le_mul_of_nonneg_right (compoundError_mono hmn) (abs_nonneg x))⟩

/-- Three roundings lose no more than half of a magnitude. -/
theorem IsWithin.half_le_abs {r : F64} {x : ℚ} (h : IsWithin 3 r x) : 1 / 2 * |x| ≤ |f64Value r| := by
  have herror : compoundError 3 * |x| ≤ 1 / 2 * |x| :=
    mul_le_mul_of_nonneg_right (compoundError_three_le.trans (by norm_num)) (abs_nonneg x)
  have htri := abs_sub_abs_le_abs_sub x (f64Value r)
  rw [abs_sub_comm] at htri
  linarith [h.error]

/-- A division in the normal range adds one rounding. -/
theorem IsWithin.fdiv {n : Nat} {r : F64} {x : ℚ} (h : IsWithin n r x) {k : Nat} (hk : 0 < k)
    (hnormal : InNormalRange (f64Value r / k)) : IsWithin (n + 1) (fdiv r k) (x / k) where
  finite := (fdiv_isRoundingOf h.finite hk).finite
  error := by
    have hround := (fdiv_isRoundingOf h.finite hk).abs_sub_le hnormal
    have hquot : |f64Value r / k - x / k| ≤ compoundError n * |x / k| := by
      rw [← sub_div, abs_div, abs_div, ← mul_div_assoc]
      gcongr
      exact h.error
    have hmagnitude : |f64Value r / k| ≤ (1 + compoundError n) * |x / k| := by
      have htri := abs_sub_abs_le_abs_sub (f64Value r / k) (x / k)
      linarith
    calc |f64Value (Machine.fdiv r k) - x / k|
      _ ≤ |f64Value (Machine.fdiv r k) - f64Value r / k| + |f64Value r / k - x / k| := abs_sub_le _ _ _
      _ ≤ 1 / 2 ^ 53 * ((1 + compoundError n) * |x / k|) + compoundError n * |x / k| := by
        gcongr
        exact hround.trans (by gcongr)
      _ = compoundError (n + 1) * |x / k| := by rw [compoundError_succ]; ring

/-! ## The value of a reading -/

/-- A decimal of at most six places is far above the subnormal range, with room for the rounding errors. -/
theorem two_zpow_le_half_decimal {N e : Nat} (hN : N ≠ 0) (he : e ≤ 6) :
    (2 : ℚ) ^ (-1022 : ℤ) ≤ 1 / 2 * |(N : ℚ) / 10 ^ e| := by
  have hNpos : (1 : ℚ) ≤ N := by exact_mod_cast Nat.one_le_iff_ne_zero.mpr hN
  rw [abs_of_nonneg (by positivity)]
  calc (2 : ℚ) ^ (-1022 : ℤ)
    _ ≤ 2 ^ (-21 : ℤ) := zpow_le_zpow_right₀ one_le_two (by norm_num)
    _ ≤ 1 / 2 * (1 / 10 ^ 6) := by norm_num
    _ ≤ 1 / 2 * (N / 10 ^ e) := by gcongr; norm_num

/-- The divisions of DEC.DPSCALE stay in the normal range (R181). -/
theorem IsWithin.inNormalRange_div {r : F64} {N e j : Nat} (h : IsWithin 3 r (N / 10 ^ e)) (he : e + j ≤ 6) :
    InNormalRange (f64Value r / (10 ^ j : ℕ)) := by
  obtain rfl | hN := eq_or_ne N 0
  · have hzero : f64Value r = 0 := by simpa using h.error
    exact .inl (by rw [hzero, zero_div])
  · refine .inr ((two_zpow_le_half_decimal hN he).trans ?_)
    rw [pow_add, ← div_div, abs_div _ (10 ^ j), Nat.cast_pow, Nat.cast_ofNat, abs_div (f64Value r), ← mul_div_assoc]
    exact div_le_div_of_nonneg_right h.half_le_abs (abs_nonneg _)

/-- One line of DEC.DPSCALE, the first three lines at most, adds at most one rounding (R176). -/
theorem IsWithin.divideIf {n : Nat} {r : F64} {N e : Nat} (h : IsWithin n r (N / 10 ^ e)) (hn : n ≤ 3)
    (marker : Bool) {j : Nat} (he : e + j * marker.toNat ≤ 6) :
    IsWithin (n + 1) (divideIf marker (10 ^ j) r) (N / 10 ^ (e + j * marker.toNat)) := by
  cases marker with
  | false => exact h.mono n.le_succ
  | true =>
    rw [Bool.toNat_true, mul_one] at he ⊢
    have hdiv := h.fdiv (k := 10 ^ j) (by positivity) ((h.mono hn).inNormalRange_div he)
    rwa [div_div, Nat.cast_pow, Nat.cast_ofNat, ← pow_add] at hdiv

/-- With any markers the scaled magnitude is within three roundings of `N / 10^e` (R176, R181). -/
theorem scale_isWithin (mag : BitVec 14) (dp : BitVec 3) :
    IsWithin 3 (scale mag dp) (mag.toNat / 10 ^ (exponentOf dp).toNat) := by
  have hint := f64OfNat_isRoundingOf (mag.isLt.trans (by norm_num))
  have hexact := hint.eq_of_isBinary64Number (isBinary64Number_natCast (mag.isLt.trans (by norm_num)))
  have hstart : IsWithin 0 (f64OfNat mag.toNat) (mag.toNat / 10 ^ 0) :=
    ⟨hint.finite, by simp [hexact, compoundError]⟩
  have h0 := (dp.getLsbD 0).toNat_le
  have h1 := (dp.getLsbD 1).toNat_le
  have h2 := (dp.getLsbD 2).toNat_le
  have hdivided := ((hstart.divideIf (by omega) (dp.getLsbD 0) (j := 1) (by omega)).divideIf (by omega)
    (dp.getLsbD 1) (j := 2) (by omega)).divideIf (by omega) (dp.getLsbD 2) (j := 3) (by omega)
  rw [exponentOf_toNat, ← Nat.zero_add (1 * _)]
  exact hdivided

theorem exponentOf_le_six (dp : BitVec 3) : (exponentOf dp).toNat ≤ 6 := by
  revert dp
  decide

theorem exactValue_eq (mag : BitVec 14) (dp : BitVec 3) (neg : Bool) :
    exactValue mag dp neg = signOf neg * (mag.toNat / 10 ^ (exponentOf dp).toNat) :=
  mul_div_assoc _ _ _

/-- The sign changes neither error nor magnitude (R177). -/
theorem valueOf_isWithin (mag : BitVec 14) (dp : BitVec 3) (neg : Bool) :
    IsWithin 3 (valueOf mag dp neg) (exactValue mag dp neg) where
  finite := (applySign_finite neg _).trans (scale_isWithin mag dp).finite
  error := by
    rw [valueOf, applySign_value, exactValue_eq, ← mul_sub, abs_mul, abs_mul, abs_signOf, one_mul, one_mul]
    exact (scale_isWithin mag dp).error

/-! ## The value 0 -/

theorem packWord_zero : packWord false 0 = 0 := rfl

theorem f64OfNat_zero : f64OfNat 0 = 0 := f64Round_zero false 1

theorem f64Finite_zero : f64Finite 0 = true := by decide

theorem f64Significand_zero : f64Significand 0 = 0 := by decide

theorem fdiv_zero (k : Nat) : fdiv 0 k = 0 := by
  have hsign : (0 : F64).msb = false := by decide
  rw [fdiv_eq_f64Round f64Finite_zero, f64Significand_zero, hsign, Nat.zero_mul, f64Round_zero, packWord_zero]

theorem divideIf_zero (marker : Bool) (k : Nat) : divideIf marker k 0 = 0 := by
  unfold divideIf
  split_ifs
  · exact fdiv_zero k
  · rfl

theorem scale_zero (dp : BitVec 3) : scale 0 dp = 0 := by
  have hint : f64OfNat (0 : BitVec 14).toNat = 0 := f64OfNat_zero
  rw [scale, hint, divideIf_zero, divideIf_zero, divideIf_zero]

theorem valueOf_zero (dp : BitVec 3) (neg : Bool) : valueOf 0 dp neg = if neg then 0x8000000000000000 else 0 := by
  rw [valueOf, scale_zero]
  cases neg <;> rfl

theorem f64Value_zero : f64Value 0 = 0 := by
  rw [f64Value_eq, f64Significand_zero, Nat.cast_zero, zero_mul, mul_zero]

end Sys2Proof.Binary64

namespace Sys2Proof.Machine

/-- DECODE of a byte list of the right shape whose four digits are recognised (R206). -/
theorem decodeList_of_recogniseAll {l : List Byte} {digits : BitVec 16} (hshape : wellShapedList l = true)
    (hdigits : recogniseAll (assemble (frameOfList l frameLen)) = .ok digits) :
    decodeList l = .ok (readingOf (frameOfList l frameLen) digits) := by
  have hframe : wellShaped (BitVec.ofNat 4 frameLen) (frameOfList l frameLen) = true := by
    rw [← hshape, ← wellShaped_hardwareForm, (lenOfList_eq_ten_iff l).mpr (wellShapedList_length hshape)]
    rfl
  rw [decodeList, if_pos hshape, decodeDframe, if_pos hframe, hdigits]

end Sys2Proof.Machine

namespace Sys2Proof.Proofs

open Sys2Proof.Machine Sys2Proof.Binary64

/-- Settles O28: three divisions are three roundings of a decimal of at most six places. -/
theorem valueErrorIsAtMostFourHalfUlps : Obligations.ValueErrorIsAtMostFourHalfUlps := by
  intro mag dp neg _
  have hwithin := valueOf_isWithin mag dp neg
  refine ⟨hwithin.finite, fun hmag => exponent_ne_zero_of_le_abs_f64Value ?_, ?_⟩
  · refine le_trans ?_ hwithin.half_le_abs
    rw [exactValue_eq, abs_mul, abs_signOf, one_mul]
    exact two_zpow_le_half_decimal hmag (exponentOf_le_six dp)
  · exact hwithin.error.trans (mul_le_mul_of_nonneg_right compoundError_three_le (abs_nonneg _))

/-- Settles O29: no division changes the word of zero, and `fneg` negates the number it stands for; the frame has four
digits 0 and the sign marker. -/
theorem signedZeroIsNegativeZero : Obligations.SignedZeroIsNegativeZero := by
  refine ⟨fun dp => ⟨valueOf_zero dp true, valueOf_zero dp false⟩, ?_, fun dp neg => ?_, ?_⟩
  · calc f64Value 0x8000000000000000
      _ = f64Value (fneg 0) := rfl
      _ = -f64Value 0 := fneg_value 0
      _ = f64Value 0 := by rw [f64Value_zero, neg_zero]
  · rw [exactValue_eq]
    simp
  · refine ⟨_, decodeList_of_recogniseAll (digits := 0) (by decide) (by decide), rfl, rfl, ?_⟩
    exact valueOf_zero _ true

end Sys2Proof.Proofs
end

section
/-! PROOFS. PIPE and the standalone Decoder beside it (R207, R213): the operation that R101 selects completes, unless a
symbol is presented in CLOSED, and then the two Decoders answer, each on its own outputs. -/

namespace Sys2Proof.Machine

/-- A byte presented in an open phase is taken: in HUNT it completes the marker or shifts the window, in PAYLOAD it is
the last byte or another one (R122 to R125). -/
theorem synEffect_byte {s : State} (b : Byte) (hopen : s.phase ≠ .closed) :
    ∃ t, SynEffect s (tableSelection (Symbol.byte b).ports s) t := by
  cases hphase : s.phase with
  | closed => exact absurd hphase hopen
  | hunt =>
    rw [tableSelection_byte_hunt b hphase]
    split_ifs with hmarker
    · exact ⟨_, .lock hphase hmarker.1⟩
    · exact ⟨_, .shift b hphase hmarker⟩
  | payload =>
    rw [tableSelection_byte_payload b hphase]
    split_ifs with hlast
    · exact ⟨_, .emit b hphase hlast⟩
    · exact ⟨_, .fill b hphase hlast⟩

/-- The selected operation finds its condition met: only a symbol presented in CLOSED is refused (R101, R109). -/
theorem synEffect_tableSelection {p : Ports} {s : State}
    (h : p.rst = false → s.phase = .closed → p.valid = false) : ∃ t, SynEffect s (tableSelection p s) t := by
  obtain ⟨rst, valid, eos, data⟩ := p
  cases rst with
  | true => exact ⟨_, .reset⟩
  | false =>
    by_cases hclosed : s.phase = .closed
    · rw [tableSelection_closed valid eos data hclosed, show valid = false from h rfl hclosed]
      exact ⟨_, .nostep hclosed⟩
    · cases valid with
      | false =>
        rw [tableSelection_nothing_presented eos data hclosed]
        exact ⟨_, .idle hclosed⟩
      | true =>
        cases eos with
        | true =>
          rw [tableSelection_eos data hclosed]
          exact ⟨_, .close hclosed⟩
        | false => exact synEffect_byte data hclosed

/-- PIPE completes with the effect of the operation it selects, and with the result of a frame that it emits (R207). -/
theorem exec_pipe_of_synEffect {rst valid eos : Bool} {data : Byte} {s u : State}
    (h : SynEffect (s.startStep rst) (tableSelection ⟨rst, valid, eos, data⟩ s) u) :
    exec (.pipe rst valid eos data) s = .next u.decodeEmitted := by
  rw [exec, execPipe, selected_eq_tableSelection]
  simp only [(runSyn_eq_next_iff _ _ _).mpr h, andThen_next]

/-- A DFRAME presented in a step that completes without it adds its result on the standalone outputs (R213). -/
theorem step_with_dframe {s u : State} {p : Ports} {rest : List Request}
    (h : step { s with inbox := .ports p none :: rest } = .next u) (len : BitVec 4) (f : Frame) :
    step { s with inbox := .ports p (some (len, f)) :: rest } =
      .next (u.emitResult .alone (decodeDframe len f)) := by
  obtain ⟨v, heffect, rfl⟩ := step_effect_of_ports (p := p) (d := none) rfl h
  have hrun : runSyn (tableSelection p s) ({ s with inbox := rest }.startStep p.rst) = .next v :=
    (runSyn_eq_next_iff _ _ _).mpr heffect
  calc step { s with inbox := .ports p (some (len, f)) :: rest }
    _ = andThen (runSyn (tableSelection p s) ({ s with inbox := rest }.startStep p.rst))
          (finishStep (some (len, f))) := step_of_ports rfl
    _ = .next (v.decodeEmitted.emitResult .alone (decodeDframe len f)) := by rw [hrun]; rfl

end Sys2Proof.Machine

namespace Sys2Proof.Proofs

open Sys2Proof.Machine

/-- Settles O41: the selected operation completes with its effect, and PIPE adds DECODE of the frame in that effect. -/
theorem pipeRunsTheSelectedOperationThenDecodes : Obligations.PipeRunsTheSelectedOperationThenDecodes := by
  intro s rst valid eos data haccepted
  obtain ⟨u, heffect⟩ : ∃ u, SynEffect (s.startStep rst) (tableSelection ⟨rst, valid, eos, data⟩ s) u :=
    synEffect_tableSelection (s := s.startStep rst) haccepted
  refine ⟨u, u.decodeEmitted, ?_, exec_pipe_of_synEffect heffect, fun hnone => ?_, fun f r hframe hr => ?_,
    fun f e hframe he => ?_⟩
  · rw [exec_tableSelection]
    exact (runSyn_eq_next_iff _ _ _).mpr heffect
  · exact State.decodeEmitted_of_none hnone
  · rw [State.decodeEmitted_of_some hframe, hr]
    rfl
  · rw [State.decodeEmitted_of_some hframe, he]
    rfl

/-- Settles O55: the step does what it does without the DFRAME, and then answers it. -/
theorem standaloneDecodeAnswersInEveryStep : Obligations.StandaloneDecodeAnswersInEveryStep := by
  intro s u p rest len f hstep
  refine ⟨_, step_with_dframe hstep len f, fun r hr => ?_, fun e he => ?_⟩
  · rw [hr]
    rfl
  · rw [he]
    rfl

end Sys2Proof.Proofs
end

section
/-! PROOFS. What one group of frame bits changes in a reading (R209, R185): frames that agree on marker and digit bits
decode to the same error or to readings of the same digits, and each other part of the reading follows its own group. -/

namespace Sys2Proof.Machine

/-- The prefix bits without `f[3][7]`, which is also Digit2's marker (R64, R201). -/
def prefixOnlyGroup : Frame := 0x0000A280000000000000

/-- The flags in the bits of the frame (R103, R200). -/
theorem modeFlags_eq_extractLsb' (f : Frame) : modeFlags f = f.extractLsb' 16 4 := by
  refine BitVec.eq_of_getLsbD_eq fun i hi => ?_
  have hbyte : i < 8 := by omega
  simp [modeFlags, frameByte, hi, hbyte]

/-- DECODE takes from marker and digit bits whether there is an error and which digits the reading has; what else two
frames give can differ only from reading to reading (R206). -/
theorem decodeDframe_eq_map {f g : Frame} (hmarker : AgreeOn markerGroup f g) (hdigits : AgreeOn digitGroup f g)
    {change : Reading → Reading} (hchange : ∀ digits, readingOf g digits = change (readingOf f digits))
    (len : BitVec 4) : decodeDframe len g = (decodeDframe len f).map change := by
  rw [decodeDframe, decodeDframe, ← wellShaped_congr hmarker len, ← assemble_congr hdigits]
  split_ifs
  · cases recogniseAll (assemble f) with
    | ok digits => exact congrArg Except.ok (hchange digits)
    | error e => rfl
  · rfl

theorem decodeDframe_follows {f g : Frame} (hmarker : AgreeOn markerGroup f g) (hdigits : AgreeOn digitGroup f g)
    {change : Reading → Reading} (hchange : ∀ digits, readingOf g digits = change (readingOf f digits))
    (len : BitVec 4) :
    (∀ e, decodeDframe len f = .error e → decodeDframe len g = .error e) ∧
      ∀ r, decodeDframe len f = .ok r → decodeDframe len g = .ok (change r) := by
  rw [decodeDframe_eq_map hmarker hdigits hchange len]
  constructor
  · intro e he
    rw [he, Except.map]
  · intro r hr
    rw [hr, Except.map]

section
variable {f g : Frame} (digits : BitVec 16)

theorem readingOf_eq_with_flags (hdigits : AgreeOn digitGroup f g) (hprefix : AgreeOn prefixGroup f g)
    (hbase : AgreeOn baseGroup f g) :
    readingOf g digits = { readingOf f digits with flags := g.extractLsb' 16 4 } := by
  simp only [readingOf, assemble_congr hdigits, prefixMask_congr hprefix, baseCode_congr hbase,
    modeFlags_eq_extractLsb']

theorem readingOf_eq_with_prefix (hdigits : AgreeOn digitGroup f g) (hflags : AgreeOn flagGroup f g)
    (hbase : AgreeOn baseGroup f g) :
    readingOf g digits =
      { readingOf f digits with
        pfx := prefixMask g, unitLen := unitLenOf (prefixMask g) (baseCode f)
        unitChars := unitCharsOf (prefixMask g) (baseCode f) } := by
  simp only [readingOf, assemble_congr hdigits, modeFlags_congr hflags, baseCode_congr hbase]

theorem readingOf_eq_with_base (hdigits : AgreeOn digitGroup f g) (hflags : AgreeOn flagGroup f g)
    (hprefix : AgreeOn prefixGroup f g) :
    readingOf g digits =
      { readingOf f digits with
        base := baseCode g, unitLen := unitLenOf (prefixMask f) (baseCode g)
        unitChars := unitCharsOf (prefixMask f) (baseCode g) } := by
  simp only [readingOf, assemble_congr hdigits, modeFlags_congr hflags, prefixMask_congr hprefix]

end

end Sys2Proof.Machine

namespace Sys2Proof.Proofs

open Sys2Proof.Machine

/-- Settles O59: a change within one group leaves the frames in agreement on the other groups, and each part of a
reading is a function of its own group. -/
theorem flagBitsAffectOnlyTheFlags : Obligations.FlagBitsAffectOnlyTheFlags := by
  intro len f g onlyIn agreeOn follows
  refine ⟨fun hflags => ?_, fun hprefix => ?_, fun hbase => ?_, fun r q hr hq => ?_⟩
  · have hagree : AgreeOn (~~~flagGroup) f g := hflags
    exact decodeDframe_follows (hagree.mono (by decide)) (hagree.mono (by decide))
      (fun digits => readingOf_eq_with_flags digits (hagree.mono (by decide)) (hagree.mono (by decide))
        (hagree.mono (by decide))) len
  · have hagree : AgreeOn (~~~prefixOnlyGroup) f g := hprefix
    exact decodeDframe_follows (hagree.mono (by decide)) (hagree.mono (by decide))
      (fun digits => readingOf_eq_with_prefix digits (hagree.mono (by decide)) (hagree.mono (by decide))
        (hagree.mono (by decide))) len
  · have hagree : AgreeOn (~~~baseGroup) f g := hbase
    exact decodeDframe_follows (hagree.mono (by decide)) (hagree.mono (by decide))
      (fun digits => readingOf_eq_with_base digits (hagree.mono (by decide)) (hagree.mono (by decide))
        (hagree.mono (by decide))) len
  · obtain ⟨-, digits, hdigits, rfl⟩ := decodeDframe_eq_ok hr
    obtain ⟨-, digits', hdigits', rfl⟩ := decodeDframe_eq_ok hq
    refine ⟨fun h => modeFlags_congr h, fun h => prefixMask_congr h, fun h => baseCode_congr h, fun h => ?_⟩
    have hassemble : assemble f = assemble g := assemble_congr h
    obtain rfl : digits = digits' := Except.ok.inj (hdigits.symm.trans (hassemble ▸ hdigits'))
    simp only [readingOf, hassemble, and_self]

end Sys2Proof.Proofs
end

section
/-! PROOFS. The field decoders (R200 to R202) and the formatter stages (R203 to R205): each field in the bits of the
frame, and what the single-bit cases do. The override chain of DEC.BASE is taken one line at a time: after `n` lines its
code is that of the last set bit among the first `n`. -/

namespace Sys2Proof.Machine

/-! ## The fields in the bits of the frame -/

/-- The place of each prefix bit in the frame, in the order tested (R201). -/
def prefixPlace : Fin 5 → Nat := ![8 * 6 + 7, 8 * 3 + 7, 8 * 7 + 7, 8 * 7 + 1, 8 * 7 + 5]

/-- The place of each base unit bit in the frame, in the order tested (R202). -/
def basePlace : Fin 8 → Nat :=
  ![8 * 6 + 6, 8 * 7 + 6, 8 * 7 + 2, 8 * 8 + 7, 8 * 8 + 6, 8 * 8 + 3, 8 * 8 + 2, 8 * 8 + 1]

theorem prefixBit_eq_getLsbD (f : Frame) (j : Fin 5) : prefixBit f j = f.getLsbD (prefixPlace j) := by
  fin_cases j <;> exact frameBit_eq f _ _ (by decide)

theorem baseBit_eq_getLsbD (f : Frame) (j : Fin 8) : baseBit f j = f.getLsbD (basePlace j) := by
  fin_cases j <;> exact frameBit_eq f _ _ (by decide)

/-- The prefix string of a frame: the five characters in the order tested, each where its bit is set (R201). -/
theorem prefixString_prefixMask (f : Frame) :
    prefixString (prefixMask f) =
      (if prefixBit f 0 then [0x6E] else []) ++ (if prefixBit f 1 then [0x75] else []) ++
        (if prefixBit f 2 then [0x6D] else []) ++ (if prefixBit f 3 then [0x6B] else []) ++
        (if prefixBit f 4 then [0x4D] else []) := by
  have hbit := prefixMask_getLsbD f
  simp only [prefixString, prefixChars, maskedChars, ← hbit, List.append_assoc, List.append_nil]
  rfl

/-- A single-bit case of DEC.BASE: with its bit clear the code that stands is kept (R202). -/
theorem baseCase_eq (f : Frame) (j : Fin 8) (s : State) :
    baseCase f j s =
      if baseBit f j then s.setStages { s.stages with base := BitVec.ofNat 4 (j.val + 1) } else s := by
  unfold baseCase overrideBase
  split_ifs <;> rfl

/-! ## The override chain -/

/-- The code `c` is that of the last set bit among the first `n` base unit bits, or 0 (R202). -/
structure LastMatch (f : Frame) (n : Nat) (c : BitVec 4) : Prop where
  le : c.toNat ≤ n
  isSet : ∀ j : Fin 8, c.toNat = j + 1 → baseBit f j = true
  clear : ∀ j : Fin 8, c.toNat ≤ j → j < n → baseBit f j = false

namespace LastMatch

variable {f : Frame} {c : BitVec 4}

theorem zero (f : Frame) : LastMatch f 0 0 := ⟨Nat.le_refl 0, nofun, nofun⟩

/-- One line of the chain takes one more bit into account. -/
theorem override {j : Fin 8} (h : LastMatch f j c) : LastMatch f (j + 1) (overrideBase f j c) := by
  unfold overrideBase
  split_ifs with hset
  · have hcode : (BitVec.ofNat 4 (j.val + 1)).toNat = j + 1 := by
      rw [BitVec.toNat_ofNat]
      omega
    refine ⟨hcode.le, fun i hi => ?_, fun i hle hlt => by omega⟩
    obtain rfl : j = i := by omega
    exact hset
  · refine ⟨Nat.le_succ_of_le h.le, h.isSet, fun i hle hlt => ?_⟩
    obtain rfl | hne := eq_or_ne i j
    · exact Bool.eq_false_iff.mpr hset
    · exact h.clear i hle (by omega)

/-- A code other than 0 is that of a set bit. -/
theorem exists_isSet (h : LastMatch f 8 c) (hpos : 0 < c.toNat) :
    ∃ j : Fin 8, c.toNat = j + 1 ∧ baseBit f j = true := by
  have hle := h.le
  have hcode : c.toNat = (⟨c.toNat - 1, by omega⟩ : Fin 8) + 1 := (Nat.sub_add_cancel hpos).symm
  exact ⟨_, hcode, h.isSet _ hcode⟩

theorem eq_zero_iff (h : LastMatch f 8 c) : c = 0 ↔ ∀ j, baseBit f j = false := by
  constructor
  · rintro rfl j
    exact h.clear j (Nat.zero_le _) j.isLt
  · intro hclear
    refine BitVec.eq_of_toNat_eq (Nat.eq_zero_of_not_pos fun hpos => ?_)
    obtain ⟨j, -, hset⟩ := h.exists_isSet hpos
    exact Bool.noConfusion (hset.symm.trans (hclear j))

theorem toNat_eq_succ_iff (h : LastMatch f 8 c) (j : Fin 8) :
    c.toNat = j + 1 ↔ baseBit f j = true ∧ ∀ i, j < i → baseBit f i = false := by
  constructor
  · intro hcode
    exact ⟨h.isSet j hcode, fun i hi => h.clear i (by omega) i.isLt⟩
  · rintro ⟨hset, hclear⟩
    have hlt : j < c.toNat := by
      by_contra hle
      exact Bool.noConfusion (hset.symm.trans (h.clear j (by omega) j.isLt))
    obtain ⟨i, hcode, hlast⟩ := h.exists_isSet (by omega)
    have hnot : ¬j < i := fun hji => Bool.noConfusion (hlast.symm.trans (hclear i hji))
    omega

end LastMatch

theorem baseCode_lastMatch (f : Frame) : LastMatch f 8 (baseCode f) :=
  (LastMatch.zero f).override (j := 0) |>.override (j := 1) |>.override (j := 2) |>.override (j := 3)
    |>.override (j := 4) |>.override (j := 5) |>.override (j := 6) |>.override (j := 7)

/-! ## The stages -/

theorem exec_decFlags (f : Frame) (s : State) :
    exec (.decFlags f) s = .next (s.setStages { s.stages with flags := modeFlags f }) := rfl

theorem exec_decPrefix (f : Frame) (s : State) :
    exec (.decPrefix f) s = .next (s.setStages { s.stages with pfx := prefixMask f }) := rfl

/-- The divisions of the floating-point form, by the markers of the digit bytes (R173, R176). -/
theorem scale_dpOf (mag : BitVec 14) (b : DigitBytes) :
    scale mag (dpOf b) =
      divideIf (markerOf b.d2) dpDivisor2 (divideIf (markerOf b.d1) dpDivisor1
        (divideIf (markerOf b.d0) dpDivisor0 (f64OfNat mag.toNat))) := by
  rw [scale, dpOf_zero, dpOf_one, dpOf_two]

theorem exec_fmtValue (s : State) :
    exec .fmtValue s =
      .next (s.setStages { s.stages with
        value := valueOf s.stages.mag (dpOf s.stages.digitBytes) (negOf s.stages.digitBytes) }) := rfl

end Sys2Proof.Machine

namespace Sys2Proof.Proofs

open Sys2Proof.Machine

/-- Settles O25: the bits of `dpOf` are the markers of the three digit bytes, and `fneg` flips the sign bit. -/
theorem formattedValueIsScaledThenSigned : Obligations.FormattedValueIsScaledThenSigned := by
  intro s b v0 v1 v2 v3 v4
  rw [exec_fmtValue, valueOf, scale_dpOf]
  rfl

/-- Settles O30: the low nibble of `f[2]` is bits 19 to 16 of the frame, and each row tests one of them. -/
theorem flagsAreTheLowNibbleOfByteTwo : Obligations.FlagsAreTheLowNibbleOfByteTwo := by
  intro s f flag
  have hrow (k : Nat) (hk : k < 8) (bit : BitVec 4) :
      .next (flagCase (frameBit f 2 k) bit s) = flag (f.getLsbD (8 * 2 + k)) bit := by
    rw [frameBit_eq f 2 k hk]
    rfl
  refine ⟨?_, hrow 0 (by decide) 1, hrow 1 (by decide) 2, hrow 2 (by decide) 4, hrow 3 (by decide) 8⟩
  rw [exec_decFlags, modeFlags_eq_extractLsb']
  rfl

/-- Settles O31: mask and string are formed from the five prefix bits in the order tested, and each row tests one. -/
theorem prefixBitsAppendInOrder : Obligations.PrefixBitsAppendInOrder := by
  intro s f n u m k M mask char row
  have hbit := prefixBit_eq_getLsbD f
  have hmask : prefixMask f = mask := by
    simp only [prefixMask, hbit]
    rfl
  have hrow (j : Fin 5) :
      .next (prefixCase f j s) = row (f.getLsbD (prefixPlace j)) (1#5 <<< j.val) := by
    rw [← hbit]
    rfl
  refine ⟨?_, ?_, hrow 0, hrow 1, hrow 2, hrow 3, hrow 4⟩
  · rw [exec_decPrefix, hmask]
    rfl
  · rw [← hmask, prefixString_prefixMask]
    simp only [hbit]
    rfl

/-- Settles O32: the chain's code is that of the last set bit among all eight. -/
theorem baseIsTheLastMatchingBit : Obligations.BaseIsTheLastMatchingBit := by
  intro s f bits
  have hbits : bits = List.ofFn (baseBit f) := by
    simp only [funext (baseBit_eq_getLsbD f)]
    rfl
  have hmatch := baseCode_lastMatch f
  refine ⟨baseCode f, rfl, ?_, fun j hj => ?_, rfl⟩
  · rw [hmatch.eq_zero_iff, hbits, List.forall_mem_ofFn_iff]
  · have hget {i : Nat} (hi : i < 8) (x : Bool) : bits[i]? = some x ↔ baseBit f ⟨i, hi⟩ = x := by
      rw [hbits, List.getElem?_ofFn, dif_pos hi, Option.some_inj]
    rw [hmatch.toNat_eq_succ_iff ⟨j, hj⟩, hget hj]
    refine and_congr_right fun _ => ⟨fun h i hlt hi => ?_, fun h i hlt => ?_⟩
    · exact (hget hi false).mpr (h ⟨i, hi⟩ hlt)
    · exact (hget i.isLt false).mp (h i hlt i.isLt)

/-- Settles O33: each row is one `baseCase`, at its own base unit bit. -/
theorem baseCaseRowsReplaceTheCode : Obligations.BaseCaseRowsReplaceTheCode := by
  intro s f line
  have hrow (j : Fin 8) :
      .next (baseCase f j s) = line (f.getLsbD (basePlace j)) (BitVec.ofNat 4 (j.val + 1)) := by
    rw [baseCase_eq, baseBit_eq_getLsbD]
    rfl
  exact ⟨hrow 0, hrow 1, hrow 2, hrow 3, hrow 4, hrow 5, hrow 6, hrow 7⟩

/-- Settles O34: the string is `unitString` of the prefix and the base code that stand. -/
theorem unitStringIsPrefixThenBase : Obligations.UnitStringIsPrefixThenBase := by
  intro s u
  obtain ⟨hlen, hnine⟩ := unitLenOf_toNat s.stages.pfx s.stages.base
  exact ⟨_, _, rfl, hlen, hlen.trans_le hnine, unitCharsOf_byte s.stages.pfx s.stages.base⟩

/-- Settles O35: the record is that of the stage results, with the markers of the digit bytes that stand. -/
theorem readingCollectsTheStageResults : Obligations.ReadingCollectsTheStageResults :=
  fun _ => rfl

end Sys2Proof.Proofs
end

section
/-! PROOFS. DECODE at the standalone Decoder (R206, R248): the shape is checked before the digits, and the digits in the
order 3, 2, 1, 0, so the first fault in that order is the one reported. -/

namespace Sys2Proof.Machine

section
variable {len : BitVec 4} {f : Frame}

/-! ## The outcomes of DECODE -/

theorem decodeDframe_of_not_wellShaped (h : wellShaped len f = false) :
    decodeDframe len f = .error .malformedFrame := by
  rw [decodeDframe, h]
  rfl

theorem decodeDframe_of_recogniseAll_error {e : Err} (hshape : wellShaped len f = true)
    (hdigits : recogniseAll (assemble f) = .error e) : decodeDframe len f = .error e := by
  rw [decodeDframe, if_pos hshape, hdigits]

theorem decodeDframe_of_recogniseAll_ok {digits : BitVec 16} (hshape : wellShaped len f = true)
    (hdigits : recogniseAll (assemble f) = .ok digits) : decodeDframe len f = .ok (readingOf f digits) := by
  rw [decodeDframe, if_pos hshape, hdigits]

/-! ## The operation: one result, on the standalone outputs -/

theorem exec_decodeFrame_of_error {e : Err} (h : decodeDframe len f = .error e) (s : State) :
    exec (.decodeFrame len f) s = .next { s with out := { s.out with aError := some e, aReading := none } } := by
  rw [exec, execDecodeFrame, h]
  rfl

theorem exec_decodeFrame_of_ok {r : Reading} (h : decodeDframe len f = .ok r) (s : State) :
    exec (.decodeFrame len f) s = .next { s with out := { s.out with aReading := some r, aError := none } } := by
  rw [exec, execDecodeFrame, h]
  rfl

end

end Sys2Proof.Machine

namespace Sys2Proof.Proofs

open Sys2Proof.Machine

/-- Settles O37: the shape decides first; then the four recognitions give the report of the first that fails, or the
digits of the reading. -/
theorem decodeGivesOneReadingOrOneError : Obligations.DecodeGivesOneReadingOrOneError := by
  intro s len f b shaped bad fails
  have hdigit {d : Byte} (h : ¬bad d) : ∃ n, recognise (patternOf d) = some n := Option.ne_none_iff_exists'.mp h
  have hfails {e : Err} (hshaped : shaped) (h : recogniseAll b = .error e) : fails e :=
    exec_decodeFrame_of_error (decodeDframe_of_recogniseAll_error ((wellShaped_iff len f).mpr hshaped) h) s
  refine ⟨fun hshaped => ?_, fun hshaped hbad => ?_, fun hshaped h3 hbad => ?_, fun hshaped h3 h2 hbad => ?_,
    fun hshaped h3 h2 h1 hbad => ?_, fun hshaped h3 h2 h1 h0 => ?_⟩
  · have hshape : wellShaped len f = false := Bool.eq_false_iff.mpr (mt (wellShaped_iff len f).mp hshaped)
    exact exec_decodeFrame_of_error (decodeDframe_of_not_wellShaped hshape) s
  · exact hfails hshaped (recogniseAll_of_none_three hbad)
  · obtain ⟨d3, h3⟩ := hdigit h3
    exact hfails hshaped (recogniseAll_of_none_two h3 hbad)
  · obtain ⟨d3, h3⟩ := hdigit h3
    obtain ⟨d2, h2⟩ := hdigit h2
    exact hfails hshaped (recogniseAll_of_none_one h3 h2 hbad)
  · obtain ⟨d3, h3⟩ := hdigit h3
    obtain ⟨d2, h2⟩ := hdigit h2
    obtain ⟨d1, h1⟩ := hdigit h1
    exact hfails hshaped (recogniseAll_of_none_zero h3 h2 h1 hbad)
  · obtain ⟨d3, h3⟩ := hdigit h3
    obtain ⟨d2, h2⟩ := hdigit h2
    obtain ⟨d1, h1⟩ := hdigit h1
    obtain ⟨d0, h0⟩ := hdigit h0
    have hreading : decodeDframe len f = .ok (readingOf f (packDigits d3 d2 d1 d0)) :=
      decodeDframe_of_recogniseAll_ok ((wellShaped_iff len f).mpr hshaped) (recogniseAll_of_some h3 h2 h1 h0)
    refine ⟨_, exec_decodeFrame_of_ok hreading s, hreading, ?_⟩
    simp only [readingOf, digitAt_packDigits_three, digitAt_packDigits_two, digitAt_packDigits_one,
      digitAt_packDigits_zero]
    exact ⟨h3, h2, h1, h0⟩

end Sys2Proof.Proofs
end

section
/-! PROOFS. A whole frame from HUNT (R304): the bytes before the tenth move the machine on and output nothing, wherever
IDLE symbols stand among them; the tenth emits and leaves the registers cleared. -/

namespace Sys2Proof.Machine

/-! ## Bytes that output nothing -/

/-- A byte that moves the stream function of R136 from one mode to another without an output (R122 to R124). -/
inductive SilentByte : HuntMode → Byte → HuntMode → Prop where
  | shift {prev b : Byte} : ¬(prev = 0xA5 ∧ b = 0xA5) → SilentByte (.hunt prev) b (.hunt b)
  | lock : SilentByte (.hunt 0xA5) 0xA5 (.take [])
  | fill {acc : List Byte} (b : Byte) : acc.length ≠ 7 → SilentByte (.take acc) b (.take (acc ++ [b]))

/-- Bytes that one after the other move the mode without an output. -/
inductive SilentBytes : HuntMode → List Byte → HuntMode → Prop where
  | nil (m : HuntMode) : SilentBytes m [] m
  | cons {m m' m'' : HuntMode} {b : Byte} {bs : List Byte} :
      SilentByte m b m' → SilentBytes m' bs m'' → SilentBytes m (b :: bs) m''

/-- At most seven payload bytes are collected in silence (R124). -/
theorem silentBytes_payload {acc bs : List Byte} (h : acc.length + bs.length ≤ 7) :
    SilentBytes (.take acc) bs (.take (acc ++ bs)) := by
  induction bs generalizing acc with
  | nil =>
    rw [List.append_nil]
    exact .nil _
  | cons b bs ih =>
    rw [List.length_cons] at h
    rw [List.append_cons]
    exact .cons (.fill b (by omega)) (ih (by rw [List.length_append, List.length_singleton]; omega))

/-- So are the two marker bytes before them, unless the window already ends in the marker's first byte (R304, R305). -/
theorem silentBytes_marker_payload {prev : Byte} {bs : List Byte} (hprev : prev ≠ 0xA5) (h : bs.length ≤ 7) :
    SilentBytes (.hunt prev) (0xA5 :: 0xA5 :: bs) (.take bs) :=
  .cons (.shift fun hmarker => hprev hmarker.1) (.cons .lock (silentBytes_payload (acc := []) (by simpa using h)))

/-! ## Their steps -/

/-- The step on a symbol list, from the effect of its first symbol. -/
theorem step_feed_of_effect {s u : State} {x : Symbol} {i : Instr} {l : List Symbol}
    (hrow : tableSelection x.ports s = i) (h : SynEffect ((s.feed l).startStep x.ports.rst) i u) :
    step (s.feed (x :: l)) = .next u.decodeEmitted := by
  rw [step_feed_cons, hrow, (runSyn_eq_next_iff _ _ _).mpr h]
  rfl

/-- The machine takes a silent byte in one step, into the mode of the stream function (R136). -/
theorem SilentByte.step {m m' : HuntMode} {b : Byte} (h : SilentByte m b m') {s : State} (hs : InMode s m)
    (l : List Symbol) : ∃ t, step (s.feed (.byte b :: l)) = .next t ∧ InMode t m' ∧ t.out.events = [] := by
  cases h with
  | shift hmarker =>
    obtain ⟨hphase, rfl⟩ := hs
    have hrow : tableSelection (Symbol.byte b).ports s = .synShift b := by
      rw [tableSelection_byte_hunt _ hphase, if_neg hmarker]
    exact ⟨_, step_feed_of_effect hrow (.shift b hphase hmarker), ⟨hphase, rfl⟩, rfl⟩
  | lock =>
    obtain ⟨hphase, hwin⟩ := hs
    have hrow : tableSelection (Symbol.byte 0xA5).ports s = .synLock := by
      rw [tableSelection_byte_hunt _ hphase, if_pos ⟨hwin, rfl⟩]
    have hnil : HoldsBytes s.fbuf [] := fun _ _ h => nomatch h
    exact ⟨_, step_feed_of_effect hrow (.lock hphase hwin), ⟨rfl, rfl, (hnil.write sync0).write sync1⟩, rfl⟩
  | fill _ hlen =>
    have hmore : s.cnt ≠ cntLast := hs.cnt_eq_cntLast_iff.not.mpr hlen
    have hbytes := hs.holdsBytes_fill b
    obtain ⟨hphase, hcnt, -⟩ := hs
    have hrow : tableSelection (Symbol.byte b).ports s = .synFill b :=
      (tableSelection_byte_payload b hphase).trans (if_neg hmore)
    refine ⟨_, step_feed_of_effect hrow (.fill b hphase hmore), ⟨rfl, ?_, hbytes⟩, rfl⟩
    rw [List.length_append, ← hcnt]
    exact cnt_succ_toNat hmore

/-- The eighth payload byte leaves HUNT with a cleared window and counter (R125). -/
theorem step_feed_last_byte {s : State} {acc : List Byte} (h : InMode s (.take acc)) (hlen : acc.length = 7) (b : Byte)
    (l : List Symbol) :
    ∃ t, step (s.feed (.byte b :: l)) = .next t ∧ t.phase = .hunt ∧ t.win1 = 0x00 ∧ t.win0 = 0x00 ∧ t.cnt = 0 := by
  have hlast : s.cnt = cntLast := h.cnt_eq_cntLast_iff.mpr hlen
  obtain ⟨hphase, -, -⟩ := h
  have hrow : tableSelection (Symbol.byte b).ports s = .synEmit b :=
    (tableSelection_byte_payload b hphase).trans (if_pos hlast)
  refine ⟨_, step_feed_of_effect hrow (.emit b hphase hlast), ?_⟩
  rw [State.decodeEmitted_phase, State.decodeEmitted_win1, State.decodeEmitted_win0, State.decodeEmitted_cnt]
  exact ⟨rfl, rfl, rfl, rfl⟩

/-! ## The run over them -/

/-- The run from `s` on `l` and then `rest` outputs nothing over `l` and goes on as that from `t` on `rest`. -/
def RunsSilentlyTo (s : State) (l rest : List Symbol) (t : State) : Prop :=
  ∃ before : List State, before.flatMap (fun u => u.out.events) = [] ∧
    run (l ++ rest).length (s.feed (l ++ rest)) = before ++ run rest.length (t.feed rest)

namespace RunsSilentlyTo

variable {s t u : State} {x : Symbol} {l rest : List Symbol}

theorem nil (s : State) (rest : List Symbol) : RunsSilentlyTo s [] rest s := ⟨[], rfl, rfl⟩

theorem cons (hstep : step (s.feed (x :: (l ++ rest))) = .next u) (hout : u.out.events = [])
    (h : RunsSilentlyTo u l rest t) : RunsSilentlyTo s (x :: l) rest t := by
  obtain ⟨before, hsilent, hrun⟩ := h
  refine ⟨u :: before, by rw [List.flatMap_cons, hout, hsilent, List.nil_append], ?_⟩
  rw [List.cons_append, List.length_cons, run_succ_of_next hstep, ← feed_of_step hstep, hrun, List.cons_append]

theorem outputEvents_eq (h : RunsSilentlyTo s l rest t) : outputEvents s (l ++ rest) = outputEvents t rest := by
  obtain ⟨before, hsilent, hrun⟩ := h
  rw [outputEvents, hrun, List.flatMap_append, hsilent, List.nil_append, outputEvents]

theorem getLast?_run (h : RunsSilentlyTo s l [x] t) (hstep : step (t.feed [x]) = .next u) :
    (run (l.length + 1) (s.feed (l ++ [x]))).getLast? = some u := by
  obtain ⟨before, -, hrun⟩ := h
  rw [List.length_append] at hrun
  rw [← List.length_singleton (a := x), hrun, List.length_singleton, run_succ_of_next hstep, run,
    List.getLast?_concat]

end RunsSilentlyTo

/-- Symbols whose bytes are silent lead into the mode of those bytes. By induction on the symbols: an IDLE keeps the mode
(R69), a byte makes its step. -/
theorem SilentBytes.runsSilentlyTo {s : State} {m m' : HuntMode} {l : List Symbol} {bs : List Byte}
    (h : SilentBytes m bs m') (hs : InMode s m) (hbytes : l.filter Symbol.taken = bs.map .byte) (rest : List Symbol) :
    ∃ t, InMode t m' ∧ RunsSilentlyTo s l rest t := by
  induction l generalizing s m bs with
  | nil =>
    cases List.map_eq_nil_iff.mp hbytes.symm
    cases h
    exact ⟨s, hs, .nil s rest⟩
  | cons x l ih =>
    cases x with
    | idle =>
      have hkeeps : InMode ((s.feed (l ++ rest)).startStep false) m := by cases m <;> exact hs
      obtain ⟨t, ht, hrun⟩ := ih h hkeeps hbytes
      exact ⟨t, ht, hrun.cons (step_feed_idle s _) rfl⟩
    | eos => cases h <;> cases hbytes
    | byte b =>
      cases h with
      | nil => cases hbytes
      | cons hbyte hrest =>
        obtain ⟨hfirst, htail⟩ := List.cons.inj hbytes
        cases hfirst
        obtain ⟨u, hstep, hu, hout⟩ := hbyte.step hs (l ++ rest)
        obtain ⟨t, ht, hrun⟩ := ih hrest hu htail
        exact ⟨t, ht, hrun.cons hstep hout⟩

/-! ## The frame -/

theorem HoldsBytes.toList (buf : Vector Byte 10) : HoldsBytes buf buf.toList := fun _ _ _ =>
  (Vector.getElem_toList ..).symm

/-- The frame of the ten bytes taken, written out: the first byte is the lowest (R83, R95). -/
theorem frameOfList_takenBytes (p : Vector Byte 8) :
    frameOfList (takenBytes ([p[0], p[1], p[2], p[3], p[4], p[5], p[6]] ++ [p[7]])) frameLen =
      p[7] ++ p[6] ++ p[5] ++ p[4] ++ p[3] ++ p[2] ++ p[1] ++ p[0] ++ (0xA5#8) ++ (0xA5#8) :=
  ((HoldsBytes.toList #v[0xA5, 0xA5, p[0], p[1], p[2], p[3], p[4], p[5], p[6], p[7]]).busOf_eq rfl).symm

end Sys2Proof.Machine

namespace Sys2Proof.Proofs

open Sys2Proof.Machine

/-- Settles O52: the first nine bytes are silent and collect seven bytes of the payload, wherever the run goes on from
there: nowhere, or with the tenth byte, which emits. -/
theorem tenBytesEmitExactlyTheirFrame : Obligations.TenBytesEmitExactlyTheirFrame := by
  intro s l p hphase hwin hten f
  have hnine : l.filter Symbol.taken =
      (0xA5 :: 0xA5 :: [p[0], p[1], p[2], p[3], p[4], p[5], p[6]] : List Byte).map .byte := by
    rw [List.filter_append] at hten
    exact List.append_cancel_right hten
  have hreach := (silentBytes_marker_payload hwin (by simp)).runsSilentlyTo ⟨hphase, rfl⟩ hnine
  obtain ⟨t₉, -, hsilent⟩ := hreach []
  obtain ⟨t, ht, hrun⟩ := hreach [.byte p[7]]
  obtain ⟨u, -, hemit⟩ := outputEvents_emit ht (ht.cnt_eq_cntLast_iff.mpr rfl) p[7] []
  obtain ⟨v, hstep, hregisters⟩ := step_feed_last_byte ht rfl p[7] []
  refine ⟨?_, ?_, v, hrun.getLast?_run hstep, hregisters⟩
  · calc outputEvents s l
      _ = outputEvents s (l ++ []) := by rw [List.append_nil]
      _ = outputEvents t₉ [] := hsilent.outputEvents_eq
      _ = [] := rfl
  · calc outputEvents s (l ++ [.byte p[7]])
      _ = outputEvents t [.byte p[7]] := hrun.outputEvents_eq
      _ = _ := hemit
      _ = [.frame f, resultEvent (decodeDframe 10 f)] := by
        rw [HuntOutput.events, decodeList_takenBytes rfl, frameOfList_takenBytes]
        rfl

end Sys2Proof.Proofs
end
